-- ==== Sys2Proof/Word.lean ====
section
/-! DEFINITION. The word types of the block: every datum it stores or moves is a byte (R63), and every
command, event and result is one 32-bit word (R80, R86). -/

namespace Sys2Proof

/-- A command, event or result word (30_encoding.md R80, R86). -/
abbrev Word := BitVec 32

/-- One FIFO slot or one line datum (10_state.md R49, 20_memory.md R63). -/
abbrev Byte := BitVec 8

end Sys2Proof
end

