-- ==== Sys2Proof/Config.lean ====
section
/-! DEFINITION. The build-time parameters of the block (00_scope.md R7). A model "takes these as
arguments": they stand in one plain record, which `Machine.State` carries unchanged (assumption log 1).
The calculator that derives the timer values from them is Machine/BitClock.lean. -/

namespace Sys2Proof

/-- `W`, the width of the timer counter and reload value: "8 by default; 16 admitted" (R7, D8). -/
inductive TimerWidth where
  | w8
  | w16
deriving DecidableEq, Repr

/-- The width in bits. -/
def TimerWidth.bits : TimerWidth → Nat
  | .w8 => 8
  | .w16 => 16

/-- `EDGE_LATCH`: is a falling edge that falls while the edge interrupt is disabled remembered (R7, D20). -/
inductive EdgeLatch where
  | none
  | latched
deriving DecidableEq, Repr

/-- `RX_CD_MODE`: the order of decrement and zero test in the RX countdown (R7, R170, D57). -/
inductive RxCdMode where
  | testThenDecrement
  | decrementThenTest
deriving DecidableEq, Repr

/-- The parameters of one build (00_scope.md R7). -/
structure Config where
  /-- `F_CLK`, timer input clock in Hz before the prescaler; OPEN. -/
  fClk : Nat
  /-- `W`. -/
  width : TimerWidth
  /-- `PRESCALERS`, the ordered list of divisors the timer offers. -/
  prescalers : List Nat
  /-- `RATES`, the baud-rate enumeration, index to rate (R7, R111, R112). -/
  rates : List Nat
  /-- `RATES_ENABLED`, the indices of `RATES` built in; OPEN. -/
  ratesEnabled : List Nat
  /-- `RELOAD_MIN`, the smallest reload value the calculator accepts. -/
  reloadMin : Nat
  /-- `MAX_ERR_PPM`, the largest accepted tick-rate error. -/
  maxErrPpm : Nat
  /-- `CAP_RX`, receive FIFO capacity in bytes; OPEN, 1..255. -/
  capRx : Nat
  /-- `CAP_TX`, transmit FIFO capacity in bytes; OPEN, 1..255. -/
  capTx : Nat
  edgeLatch : EdgeLatch
  rxCdMode : RxCdMode
  /-- The entries of `THRESH_TAB` given as a parameter table, as (rate index, threshold); an index not
  listed takes the formula of 40_bitclock.md R118. -/
  threshTable : List (Nat × Nat)
deriving DecidableEq, Repr

/-- The test configuration `TC` of 00_scope.md R8, with the rate enumeration of 40_bitclock.md R112. -/
def Config.tc : Config where
  fClk := 16000000
  width := .w8
  prescalers := [1, 8, 64, 256, 1024]
  rates := [2400, 4800, 9600, 19200, 38400, 57600, 115200]
  ratesEnabled := [2, 3, 4]
  reloadMin := 1
  maxErrPpm := 20000
  capRx := 2
  capTx := 3
  edgeLatch := .none
  rxCdMode := .testThenDecrement
  threshTable := []

end Sys2Proof
end

