-- ==== Sys2Proof/Syntax.lean ====
section
/-! DEFINITION. The operations of the block: the nine commands of the command port and the three events
of the event port, one constructor per row of the opcode map (30_encoding.md R82). -/

namespace Sys2Proof

/-- One command or event, its operand as 30_encoding.md R81 gives it: `idx` unsigned 3 bits (format I),
`byte` unsigned 8 bits (format B), `lvl` one bit (format L), `cnt` the 16 operand bits of format C, of
which a build with `W = 8` admits only the low 8 (`Instr.wellFormed`). -/
inductive Instr where
  | nop
  | initialise (idx : BitVec 3)
  | putChar (byte : Byte)
  | dataPending
  | getChar
  | enableReceive
  | disableReceive
  | readStatus
  | clearOverflow
  | tick (lvl : Bool)
  | edge (cnt : BitVec 16)
  | edgeFire (cnt : BitVec 16)
deriving DecidableEq, Repr

end Sys2Proof
end

