-- ==== Sys2Proof/Machine/State.lean ====
section
/-! DEFINITION. The state of the block as plain data (10_state.md R20 to R54), the reasons a step can stop,
and the state at reset (70_reset_and_hazards.md R321). -/

namespace Sys2Proof.Machine

/-- FIFO storage: (slot, byte) pairs, slots strictly rising, no pair holding what an unlisted slot reads
as (`Memory.wf`). It stands for the slots `0..CAP_f - 1` of 20_memory.md R60. -/
abbrev Memory := List Host.Cell

/-- The two FIFOs (R48), the block's only two address spaces (R60). -/
inductive FifoId where
  | rx
  | tx
deriving DecidableEq, Repr

/-- One FIFO (R48, R49): `TOP` is the count of valid bytes, which are slots `0..TOP - 1`. -/
structure Fifo where
  data : Memory
  top : BitVec 8
  lock : Bool
  dirty : Bool
deriving DecidableEq, Repr

/-- The values the model's fault register can hold (60_exceptions.md R280). -/
inductive FaultCode where
  /-- `0x10`, an illegal command word (R290). -/
  | illegalCommand
  /-- `0x11`, a command that needs the link before INITIALISE (R291). -/
  | notInitialised
  /-- `0x12`, GET_CHAR on an empty receive FIFO (R292). -/
  | getcharEmpty
  /-- `0x13`, INITIALISE with interrupts enabled (R293). -/
  | initInterruptible
deriving DecidableEq, Repr

/-- The micro-step labels of 44_facade.md, the values of `FG_STEP` (R51). -/
inductive FgStep where
  | n1
  | i1
  | pc1 | pc2 | pc3 | pc4 | pc5 | pc6
  | dp1 | dp2 | dp3
  | gc1 | gc2 | gc3
  | er1
  | dr1
  | rs1
  | co1
deriving DecidableEq, Repr

/-- The RX engine state that `STATUS.RXS` encodes (R24); `reserved` is code 3, which no rule writes. -/
inductive RxState where
  | idle
  | armedCountdown
  | receiving
  | reserved
deriving DecidableEq, Repr

/-- The TX engine state that `STATUS.TXS` encodes (R25). -/
inductive TxState where
  | idle
  | sentStartBit
  | sendingData
  | bufferLocked
deriving DecidableEq, Repr

/-- A command word the host has put on the command port and the foreground has not yet taken (R220), with
the environment's draw of R222 for it: whether storage is obtained (assumption log 3). -/
structure HostCommand where
  word : Word
  storageOk : Bool
deriving DecidableEq, Repr

/-- One choice of the environment: which step the run takes next (R6, R65). -/
inductive Turn where
  /-- One foreground micro-step. -/
  | foreground
  /-- One event word on the event port. -/
  | event (w : Word)
deriving DecidableEq, Repr

/-- The state of the block. The first group is the build (R7), which no step writes; the last group is
the environment (R6) and the observation (R11), held as data because a step is one function of the state. -/
structure State where
  /-- The build parameters (R7); constant in a run. -/
  cfg : Config
  /-- `STATUS` (R23): `RXS` 1:0, `TXS` 3:2, `RXOVF` 4, reserved 6:5, `NOTINIT` 7. -/
  status : BitVec 8
  /-- `RX_SHIFT` (R30). -/
  rxShift : BitVec 8
  /-- `RX_BITCNT`, legal 0..8 (R31). -/
  rxBitcnt : BitVec 4
  /-- `RX_PHASE` (R32). -/
  rxPhase : Bool
  /-- `RX_CD` (R33). -/
  rxCd : BitVec 2
  /-- `TX_SHIFT` (R34). -/
  txShift : BitVec 8
  /-- `TX_BITCNT`, legal 0..8 (R35). -/
  txBitcnt : BitVec 4
  /-- `TX_PHASE` (R36). -/
  txPhase : Bool
  /-- `TXD`, the transmit pin's level (R37). -/
  txd : Bool
  /-- `TXD_OE`, the transmit pin is an output (R37). -/
  txdOe : Bool
  /-- `EDGE_IE` (R39). -/
  edgeIe : Bool
  /-- `EDGE_PEND`; exists only with `EDGE_LATCH = latched` and reads 0 otherwise (R40, `edgePendRead`). -/
  edgePend : Bool
  /-- `TMR_RUN` (R41). -/
  tmrRun : Bool
  /-- `TICK_IE` (R41). -/
  tickIe : Bool
  /-- `TMR_PS`, index into `PRESCALERS` (R42). -/
  tmrPs : BitVec 3
  /-- `TMR_TOP`, W bits (R43), held in 16. -/
  tmrTop : BitVec 16
  /-- `THRESH`, W bits (R44), held in 16. -/
  thresh : BitVec 16
  /-- `RATE_SEL` (R46). -/
  rateSel : BitVec 3
  /-- `GIE`, the CPU's global interrupt enable (R47). -/
  gie : Bool
  /-- `RXF` (R48). -/
  rxf : Fifo
  /-- `TXF` (R48). -/
  txf : Fifo
  /-- `FAULT`, the sticky model fault register (R50). -/
  fault : Option FaultCode
  /-- `FG_OP`, the command in flight (R51). -/
  fgOp : Option Instr
  /-- `FG_STEP`, its next micro-step (R51). -/
  fgStep : FgStep
  /-- `FG_T` (R51). -/
  fgT : BitVec 8
  /-- `FG_V` (R51). -/
  fgV : BitVec 8
  /-- `FG_ACC` (R51). -/
  fgAcc : Bool
  /-- The result words delivered so far, oldest first (R11, R86). -/
  results : List Word
  /-- The command words the host has yet to have taken, in order (R220). -/
  cmdPort : List HostCommand
  /-- The environment's choices still to come, in order; when there is none the foreground moves. -/
  script : List Turn
  /-- The environment's storage draw for the command taken last (R222). -/
  storageOk : Bool
deriving DecidableEq, Repr

/-- Why the machine stops with a fault. -/
inductive Fault where
  /-- Raised by every step and every operation from a state whose `FAULT` is set: "no further step of any
  agent is taken" (R284). Safe: the run has ended. -/
  | stopped (code : FaultCode)
  /-- Raised by an operation that finds a field outside its legal values (`State.legal`; R10, R24, R61,
  93_implementation_defined.md U10, U25): no rule reaches such a state. Safe: the machine stops. -/
  | illegalState
deriving DecidableEq, Repr

/-- Why there is no step. -/
inductive Refusal where
  /-- Raised by `exec` for an instruction that has no meaning yet. Safe. -/
  | notModelled (mnemonic : String)
  /-- Raised by `step` and INITIALISE for a build that fails 40_bitclock.md R115 or the ranges of R7:
  "it has no machine for it" (R116, U4). Safe. -/
  | noMachine
  /-- Raised by a foreground turn with no command in flight and none on the port: the foreground is idle
  and has no micro-step to take (R11, R65, R320). Safe. -/
  | noCommand
  /-- Raised when a command is executed while another is in flight: "The foreground takes a new command
  only when `FG_OP = none`" (R220); `step` never asks for it. Safe. -/
  | foregroundBusy
  /-- Raised by a foreground turn while an EDGE_FIRE is due: "no foreground micro-step is taken before it"
  (R263). Safe: the environment delivers the EDGE_FIRE first. -/
  | edgeFireFirst
  /-- Raised by an event word that is no event of this build: "the model has no step for it" (R84, U7).
  Safe. -/
  | notAnEvent
  /-- Raised by TICK while the timer is stopped or masked: a TICK cannot occur (R261, U8). Safe. -/
  | tickCannotOccur
  /-- Raised by EDGE_FIRE while no latched edge is pending and enabled: it cannot occur (R263). Safe. -/
  | edgeFireCannotOccur
  /-- Raised by EDGE or EDGE_FIRE that would run the handler with a count above `TMR_TOP`: "the model has
  no step for it" (R264, U7). Safe. -/
  | countAboveTop
deriving DecidableEq, Repr

/-- A FIFO at reset: every field unspecified, here 0 (R49, R321; assumption log 8). -/
def Fifo.atReset : Fifo where
  data := []
  top := 0
  lock := false
  dirty := false

/-- The state at reset of a build (70_reset_and_hazards.md R321). Fields the spec leaves unspecified are 0:
"A model may start it at any value, or at 0" (assumption log 8). -/
def State.resetOf (cfg : Config) : State where
  cfg := cfg
  status := 0x80
  rxShift := 0
  rxBitcnt := 0
  rxPhase := false
  rxCd := 0
  txShift := 0
  txBitcnt := 0
  txPhase := false
  txd := false
  txdOe := false
  edgeIe := false
  edgePend := false
  tmrRun := false
  tickIe := false
  tmrPs := 0
  tmrTop := 0
  thresh := 0
  rateSel := 0
  gie := false
  rxf := Fifo.atReset
  txf := Fifo.atReset
  fault := none
  fgOp := none
  fgStep := .n1
  fgT := 0
  fgV := 0
  fgAcc := false
  results := []
  cmdPort := []
  script := []
  storageOk := true

/-- The state at reset, of the test configuration of 00_scope.md R8 (assumption log 1). -/
def State.reset : State := State.resetOf Config.tc

end Sys2Proof.Machine
end

