-- ==== Sys2Proof/Machine/BitClock.lean ====
section
/-! DEFINITION. The Bit-Clock Configuration (40_bitclock.md R110 to R123): the build-time calculator of the
reload values, the one prescaler and the sample offset thresholds. All arithmetic is exact on naturals. -/

namespace Sys2Proof.Machine

/-- `div` of R113: `F_CLK / D` rounded half up, with `D = P * T`, `T = 2 * b`. -/
def divisor (fClk p b : Nat) : Nat :=
  let d := p * (2 * b)
  (2 * fClk + d) / (2 * d)

/-- `reload(P, b) = div - 1` (R113); meaningful only where `div >= 1`. -/
def reloadFor (fClk p b : Nat) : Nat := divisor fClk p b - 1

/-- `|F_CLK - P * div * T|`, the error term of R114. -/
def rateError (fClk p b : Nat) : Nat :=
  let real := p * divisor fClk p b * (2 * b)
  (fClk - real) + (real - fClk)

/-- `valid(P, b)` of R114. -/
def pairValid (cfg : Config) (p b : Nat) : Bool :=
  decide (1 ≤ divisor cfg.fClk p b)
    && decide (cfg.reloadMin ≤ reloadFor cfg.fClk p b)
    && decide (reloadFor cfg.fClk p b ≤ 2 ^ cfg.width.bits - 1)
    && decide (rateError cfg.fClk p b * 1000000
        ≤ cfg.maxErrPpm * (p * divisor cfg.fClk p b * (2 * b)))

/-- The prescaler `P` serves rate index `i`; an index outside `RATES` is served by none. -/
def prescalerServes (cfg : Config) (p i : Nat) : Bool :=
  match cfg.rates[i]? with
  | some b => pairValid cfg p b
  | none => false

/-- `PS_SEL`: the smallest index whose prescaler serves every enabled rate (R115), if there is one. -/
def prescalerSel (cfg : Config) : Option Nat :=
  cfg.prescalers.findIdx? (fun p => cfg.ratesEnabled.all (prescalerServes cfg p))

/-- What INITIALISE programs for one rate (R120). -/
structure TimerSetting where
  ps : Nat
  reload : Nat
  thresh : Nat
deriving DecidableEq, Repr

/-- `THRESH_TAB[i]`: the parameter table's entry, else `floor((RELOAD[i] + 1) / 2)` (R118, D13). -/
def threshFor (cfg : Config) (i reload : Nat) : Nat :=
  match cfg.threshTable.lookup i with
  | some t => t
  | none => (reload + 1) / 2

/-- `PS_SEL`, `RELOAD[i]` and `THRESH_TAB[i]` of an enabled rate (R115, R117, R118); none where the
configuration has no prescaler (R116) or the rate is not enabled (R117). -/
def timerSetting (cfg : Config) (i : Nat) : Option TimerSetting :=
  match prescalerSel cfg with
  | none => none
  | some k =>
    match cfg.prescalers[k]?, cfg.rates[i]? with
    | some p, some b =>
      if cfg.ratesEnabled.contains i then
        let r := reloadFor cfg.fClk p b
        some ⟨k, r, threshFor cfg i r⟩
      else none
    | _, _ => none

/-- A threshold is one R118 admits, `0..RELOAD[i] + 1`, and fits the W-bit register (R44, R10;
assumption log 17). -/
def threshAdmitted (cfg : Config) (i : Nat) : Bool :=
  match timerSetting cfg i with
  | some t => decide (t.thresh ≤ t.reload + 1) && decide (t.thresh < 2 ^ cfg.width.bits)
  | none => false

/-- The prescaler list is one R111 admits: ascending positive divisors. -/
def ascendingFrom : Nat → List Nat → Bool
  | _, [] => true
  | n, p :: rest => decide (n < p) && ascendingFrom p rest

/-- The number of `F_CLK` cycles of one tick period, `P * (TMR_TOP + 1)` (R121). -/
def tickCycles (cfg : Config) (i : Nat) : Option Nat :=
  match timerSetting cfg i with
  | some t => (cfg.prescalers[t.ps]?).map (· * (t.reload + 1))
  | none => none

end Sys2Proof.Machine

namespace Sys2Proof

/-- The configuration is one a machine exists for: R115 holds, `F_CLK` is positive, `RATES`
is short enough for the 3 bits of `RATE_SEL` (R46), some rate is enabled, the capacities are in 1..255 (R7, R49),
`PRESCALERS` is ascending (R111) and short enough for the 3 bits of `TMR_PS` (R42), and every threshold is admitted (R118). A configuration that fails has no machine (R116). -/
def Config.valid (cfg : Config) : Bool :=
  decide (0 < cfg.fClk)
    && decide (cfg.rates.length ≤ 8)
    && !cfg.ratesEnabled.isEmpty
    && decide (1 ≤ cfg.capRx) && decide (cfg.capRx ≤ 255)
    && decide (1 ≤ cfg.capTx) && decide (cfg.capTx ≤ 255)
    && Machine.ascendingFrom 0 cfg.prescalers
    && decide (cfg.prescalers.length ≤ 8)
    && (Machine.prescalerSel cfg).isSome
    && cfg.ratesEnabled.all (Machine.threshAdmitted cfg)

end Sys2Proof
end

