-- ==== Sys2Proof/Machine/Flags.lean ====
section
/-! DEFINITION. The status word and its fields (10_state.md R23 to R29): the field codes, the reads, and the
masked writes "that leave the other fields unchanged" (R29). -/

namespace Sys2Proof.Machine

/-- The code of an RX state (R24). -/
def RxState.code : RxState → BitVec 2
  | .idle => 0
  | .armedCountdown => 1
  | .receiving => 2
  | .reserved => 3

/-- The RX state of a code (R24). -/
def RxState.ofCode (c : BitVec 2) : RxState :=
  if c = 0 then .idle else if c = 1 then .armedCountdown else if c = 2 then .receiving else .reserved

/-- The code of a TX state (R25). -/
def TxState.code : TxState → BitVec 2
  | .idle => 0
  | .sentStartBit => 1
  | .sendingData => 2
  | .bufferLocked => 3

/-- The TX state of a code (R25). -/
def TxState.ofCode (c : BitVec 2) : TxState :=
  if c = 0 then .idle else if c = 1 then .sentStartBit else if c = 2 then .sendingData else .bufferLocked

/-- `STATUS.RXS`, bits 1:0. -/
def rxsOf (st : BitVec 8) : RxState := RxState.ofCode (st.extractLsb' 0 2)

/-- `STATUS.TXS`, bits 3:2. -/
def txsOf (st : BitVec 8) : TxState := TxState.ofCode (st.extractLsb' 2 2)

/-- `STATUS.RXOVF`, bit 4 (R26). -/
def rxovfOf (st : BitVec 8) : Bool := st.getLsbD 4

/-- `STATUS.NOTINIT`, bit 7 (R27). -/
def notinitOf (st : BitVec 8) : Bool := st.getLsbD 7

/-- Masked write of `RXS`. -/
def setRxs (st : BitVec 8) (x : RxState) : BitVec 8 := (st &&& 0xFC) ||| x.code.zeroExtend 8

/-- Masked write of `TXS`. -/
def setTxs (st : BitVec 8) (x : TxState) : BitVec 8 := (st &&& 0xF3) ||| (x.code.zeroExtend 8 <<< 2)

/-- `RXOVF <- 1` (R26). -/
def setRxovf (st : BitVec 8) : BitVec 8 := st ||| 0x10

/-- `RXOVF <- 0` (R232). -/
def clearRxovf (st : BitVec 8) : BitVec 8 := st &&& 0xEF

/-- The whole word as READ_STATUS reads it: bits 6:5 "read as 0" (R28). -/
def readStatusWord (st : BitVec 8) : BitVec 8 := st &&& 0x9F

/-- `STATUS.RXS` of a state. -/
def State.rxState (s : State) : RxState := rxsOf s.status

/-- `STATUS.TXS` of a state. -/
def State.txState (s : State) : TxState := txsOf s.status

/-- `STATUS.RXOVF` of a state. -/
def State.rxovf (s : State) : Bool := rxovfOf s.status

/-- `STATUS.NOTINIT` of a state. -/
def State.notinit (s : State) : Bool := notinitOf s.status

/-- Write of `STATUS.RXS`. -/
def State.setRxState (s : State) (x : RxState) : State := { s with status := setRxs s.status x }

/-- Write of `STATUS.TXS`. -/
def State.setTxState (s : State) (x : TxState) : State := { s with status := setTxs s.status x }

/-- Set of `STATUS.RXOVF`. -/
def State.setOverflow (s : State) : State := { s with status := setRxovf s.status }

/-- Clear of `STATUS.RXOVF`. -/
def State.clearOverflow (s : State) : State := { s with status := clearRxovf s.status }

/-- `EDGE_PEND` as it reads: it exists only with `EDGE_LATCH = latched` and reads as 0 otherwise (R40). -/
def State.edgePendRead (s : State) : Bool := decide (s.cfg.edgeLatch = .latched) && s.edgePend

/-- A latched edge is due: the conditions under which EDGE_FIRE can occur, but for `FAULT` (R263). -/
def State.edgeFireReady (s : State) : Bool := s.edgePendRead && s.edgeIe && s.gie

/-- A TICK can occur, but for `FAULT` (R261). -/
def State.tickReady (s : State) : Bool := s.tmrRun && s.tickIe && s.gie

/-- An EDGE is delivered to the handler at once (R162, R262). -/
def State.edgeReady (s : State) : Bool := s.edgeIe && s.gie

end Sys2Proof.Machine
end

