-- ==== Sys2Proof/Machine/Operands.lean ====
section
/-! DEFINITION. How an operand reaches a field: "each is zero-extended to the width of the field it is
compared with or written to" (30_encoding.md R81); and the width of results (R86). -/

namespace Sys2Proof.Machine

/-- `zext_8(lvl)` of 42_rx_engine.md R170, R172. -/
def levelByte (lvl : Bool) : BitVec 8 := if lvl then 1 else 0

/-- Bit `k` of the transmit byte, `TX_SHIFT[k]` (43_tx_engine.md R193, R194). -/
def bitOf (b : BitVec 8) (k : BitVec 4) : Bool := b.getLsbD k.toNat

/-- "`c < THRESH`", unsigned and strict (42_rx_engine.md R164). -/
def belowThreshold (c thresh : BitVec 16) : Bool := decide (c.toNat < thresh.toNat)

/-- `c` in `0..TMR_TOP` (45_events.md R264). -/
def countAdmitted (c top : BitVec 16) : Bool := decide (c.toNat ≤ top.toNat)

/-- A 1-bit result value (30_encoding.md R87, PUT_CHAR). -/
def flagValue (b : Bool) : BitVec 16 := if b then 1 else 0

/-- A byte as a result value (R87: DATA_PENDING, GET_CHAR, READ_STATUS). -/
def byteValue (b : BitVec 8) : BitVec 16 := b.zeroExtend 16

/-- The result word: `RES[31:16] = 0`, `RES[15:0] = value` (R86). -/
def resultWord (v : BitVec 16) : Word := v.zeroExtend 32

end Sys2Proof.Machine
end

