-- ==== Sys2Proof/WellFormed.lean ====
section
/-! DEFINITION. The operand checks of 30_encoding.md R83 and R84 that depend on the build: what makes a
decoded operation legal under the parameters of R7. The reserved bits are the decoder's (Decode.lean). -/

namespace Sys2Proof

/-- `RATES_ENABLED` holds `idx`: the check on `INITIALISE` (R83, R84, D45). -/
def Config.rateEnabled (cfg : Config) (idx : BitVec 3) : Bool :=
  cfg.ratesEnabled.contains idx.toNat

/-- `OPND[15:W]` is 0: the check on format C (R81). -/
def Config.countFits (cfg : Config) (cnt : BitVec 16) : Bool :=
  decide (cnt.toNat < 2 ^ cfg.width.bits)

/-- An operation is well formed for a build: a rate that is enabled, a count of `W` bits, and an
`EDGE_FIRE` only where edges are latched (R81, R83, R84). -/
def Instr.wellFormed (cfg : Config) : Instr → Bool
  | .nop => true
  | .initialise idx => cfg.rateEnabled idx
  | .putChar _ => true
  | .dataPending => true
  | .getChar => true
  | .enableReceive => true
  | .disableReceive => true
  | .readStatus => true
  | .clearOverflow => true
  | .tick _ => true
  | .edge cnt => cfg.countFits cnt
  | .edgeFire cnt => decide (cfg.edgeLatch = .latched) && cfg.countFits cnt

end Sys2Proof
end

