-- ==== Sys2Proof/Machine/Ops.lean ====
section
/-! DEFINITION. The shared operations: FIFO storage (20_memory.md R61), the FIFO primitives
(41_fifo.md R131 to R138), raising a model fault (60_exceptions.md R284), taking an interrupt and returning
from it (R298, R299), and the course of a foreground command (44_facade.md R220, R221). -/

namespace Sys2Proof.Machine

/-! FIFO storage. -/

/-- What an unlisted slot reads as; the spec leaves the bytes unspecified (R49; assumption log 9). -/
def Memory.unlisted : Byte := 0

/-- Pairs strictly rising above `n`, none holding the unlisted byte. -/
def Memory.wfFrom : Nat → Memory → Bool
  | _, [] => true
  | n, (a, b) :: rest => decide (n ≤ a) && decide (b ≠ Memory.unlisted) && Memory.wfFrom (a + 1) rest

/-- The canonical form. -/
def Memory.wf (m : Memory) : Bool := Memory.wfFrom 0 m

/-- `FifoRead` on the storage (R61). -/
def Memory.read : Memory → Nat → Byte
  | [], _ => Memory.unlisted
  | (a, b) :: rest, i => if i = a then b else Memory.read rest i

/-- `FifoWrite` on the storage (R61), keeping the canonical form. -/
def Memory.write : Memory → Nat → Byte → Memory
  | [], i, v => if v = Memory.unlisted then [] else [(i, v)]
  | (a, b) :: rest, i, v =>
    if i < a then (if v = Memory.unlisted then (a, b) :: rest else (i, v) :: (a, b) :: rest)
    else if i = a then (if v = Memory.unlisted then rest else (i, v) :: rest)
    else (a, b) :: Memory.write rest i v

/-- `CAP_f` (R48). -/
def capOf (cfg : Config) : FifoId → Nat
  | .rx => cfg.capRx
  | .tx => cfg.capTx

/-- `RXF` or `TXF`. -/
def State.fifo (s : State) : FifoId → Fifo
  | .rx => s.rxf
  | .tx => s.txf

/-- Replace `RXF` or `TXF`. -/
def State.setFifo (s : State) : FifoId → Fifo → State
  | .rx, x => { s with rxf := x }
  | .tx, x => { s with txf := x }

/-- `FifoRead(f, i)` (R61). -/
def fifoRead (f : Fifo) (i : Nat) : Byte := f.data.read i

/-- `FifoWrite(f, i, v)` (R61). -/
def fifoWrite (f : Fifo) (i : Nat) (v : Byte) : Fifo := { f with data := f.data.write i v }

/-! FIFO primitives. -/

/-- `try_lock(f)`: the locked FIFO, or none and no change (R131). -/
def tryLock (f : Fifo) : Option Fifo := if f.lock then none else some { f with lock := true }

/-- `unlock(f)` (R132); also the foreground's `release(f)` (R134). -/
def unlock (f : Fifo) : Fifo := { f with lock := false }

/-- `append(f, b)`, interrupt form: the longer FIFO, or none for FULL and no change (R135). -/
def fifoAppend (cap : Nat) (f : Fifo) (b : Byte) : Option Fifo :=
  if f.top.toNat < cap then some { fifoWrite f f.top.toNat b with top := f.top + 1 } else none

/-- The loop of R137 over slots `0..n - 1`, in rising order: each takes the byte of the slot above it. -/
def shiftDown (m : Memory) : Nat → Memory
  | 0 => m
  | n + 1 => let m' := shiftDown m n
             m'.write n (m'.read (n + 1))

/-- `compact_front(f)` (R137). -/
def compactFront (f : Fifo) : Fifo :=
  if f.top = 0 then f
  else { f with data := shiftDown f.data (f.top.toNat - 1), top := f.top - 1 }

/-- The compaction service on one FIFO (R138): the lock is taken, the front removed, `DIRTY` cleared and
the lock given back; with the lock held elsewhere, or nothing dirty, no change. -/
def serviceFifo (f : Fifo) : Fifo :=
  if f.dirty then
    match tryLock f with
    | some g => unlock { compactFront g with dirty := false }
    | none => f
  else f

/-- `Service(f)` (R138, R260). -/
def service (f : FifoId) (s : State) : State := s.setFifo f (serviceFifo (s.fifo f))

/-! Faults, interrupts, masking. -/

/-- The code of a model fault (R280). -/
def FaultCode.code : FaultCode → BitVec 8
  | .illegalCommand => 0x10
  | .notInitialised => 0x11
  | .getcharEmpty => 0x12
  | .initInterruptible => 0x13

/-- `raise Fault(code)`: "if `FAULT = none`, set `FAULT <- code`" and no other change (R284). -/
def raiseFault (c : FaultCode) (s : State) : State :=
  match s.fault with
  | none => { s with fault := some c }
  | some _ => s

/-- Interrupt entry: the foreground stays suspended as it is and `GIE` is masked (R298). -/
def interruptEnter (s : State) : State := { s with gie := false }

/-- Interrupt return: "`GIE` is as it was at entry", and the foreground resumes at `FG_STEP` (R299). -/
def interruptReturn (g : Bool) (s : State) : State := { s with gie := g }

/-- Taking an interrupt: entry, the handler run to its end, return; one atomic step (R281, R298, R299). -/
def takeInterrupt (handler : State → State) (s : State) : State :=
  interruptReturn s.gie (handler (interruptEnter s))

/-- A foreground micro-step with interrupts masked for its duration and `GIE` restored (R70, R133, R232). -/
def masked (act : State → State) (s : State) : State :=
  let g := s.gie
  let t := act { s with gie := false }
  { t with gie := g }

/-! The course of a foreground command. -/

/-- Go to a micro-step of the command in flight (R220). -/
def goTo (i : Instr) (l : FgStep) (s : State) : State := { s with fgOp := some i, fgStep := l }

/-- `return v`: deliver the result word and leave the foreground idle (R86, R220). -/
def deliver (v : BitVec 16) (s : State) : State :=
  { s with fgOp := none, results := s.results ++ [resultWord v] }

/-- `return v` in the micro-step `l` a command is taken at: `FG_STEP` is left as the taking set it (R220). -/
def deliverFrom (l : FgStep) (v : BitVec 16) (s : State) : State := deliver v { s with fgStep := l }

/-- The command needs the link: before the first successful INITIALISE it raises `F_NOT_INITIALISED` (R221). -/
def needsLink : Instr → Bool
  | .nop => false
  | .initialise _ => false
  | .readStatus => false
  | .putChar _ => true
  | .dataPending => true
  | .getChar => true
  | .enableReceive => true
  | .disableReceive => true
  | .clearOverflow => true
  | .tick _ => false
  | .edge _ => false
  | .edgeFire _ => false

/-- One foreground step of command `i`, whose first micro-step is `first` and whose micro-steps are `body`.
With the foreground idle the command is taken, checked (`F_ILLEGAL_COMMAND`, then `F_NOT_INITIALISED`; R220,
R221, R306) and its first micro-step run; with `i` in flight its micro-step `FG_STEP` is run. Nothing is done
before a due EDGE_FIRE (R263) or after a fault (R284). -/
def foregroundStep (i : Instr) (first : FgStep)
    (body : FgStep → State → Host.Outcome State Fault Refusal) (s : State) :
    Host.Outcome State Fault Refusal :=
  match s.fault with
  | some c => .fault (.stopped c)
  | none =>
    if s.edgeFireReady then .refused .edgeFireFirst
    else
      match s.fgOp with
      | none =>
        if !i.wellFormed s.cfg then .next (raiseFault .illegalCommand s)
        else if needsLink i && s.notinit then .next (raiseFault .notInitialised s)
        else body first s
      | some j => if j = i then body s.fgStep s else .refused .foregroundBusy

/-- One event `i`: refused where it is no event of the build (R84), not taken after a fault (R284). -/
def eventStep (i : Instr) (body : State → Host.Outcome State Fault Refusal) (s : State) :
    Host.Outcome State Fault Refusal :=
  match s.fault with
  | some c => .fault (.stopped c)
  | none => if i.wellFormed s.cfg then body s else .refused .notAnEvent

/-- The foreground's test-and-set of `blocking_acquire`, step A.2: the masked micro-step, and whether the
lock was taken (R133). -/
def testAndSet (f : FifoId) (s : State) : State × Bool :=
  let free := !(s.fifo f).lock
  (masked (fun t => if (t.fifo f).lock then t else t.setFifo f { t.fifo f with lock := true }) s, free)

/-! Legal values. -/

/-- A FIFO's count is in `0..CAP_f` (R49). -/
def topLegal (cap : Nat) (f : Fifo) : Bool := decide (f.top.toNat ≤ cap)

/-- Every field the tick handler reads has a value its rule lists (R24, R31, R33, R35, R49, R54): outside
these no rule says what a TICK does (R10, R61, U10, U25). -/
def State.legal (s : State) : Bool :=
  decide (s.rxState ≠ .reserved)
    && decide (s.rxBitcnt.toNat ≤ 8)
    && decide (s.txBitcnt.toNat ≤ 8)
    && decide (s.txState = .sentStartBit → s.txBitcnt.toNat < 8)
    && decide (s.cfg.rxCdMode = .decrementThenTest → s.rxState = .armedCountdown → s.rxCd ≠ 0)
    && topLegal s.cfg.capRx s.rxf
    && topLegal s.cfg.capTx s.txf
    && decide (1 ≤ s.cfg.capTx)

/-- Slot `i` of FIFO `f` exists: `0 <= i < CAP_f` (R60, R61). -/
def State.slotExists (s : State) (f : FifoId) (i : Nat) : Bool := decide (i < capOf s.cfg f)

end Sys2Proof.Machine
end

