-- ==== Sys2Proof/Machine/RxEngine.lean ====
section
/-! DEFINITION. The RX engine (42_rx_engine.md R160 to R176): the edge handler and the RX step of a tick. -/

namespace Sys2Proof.Machine

/-- The countdown an edge at counter value `c` sets: 2 below the threshold, else 3 (R164). -/
def countdownFor (c thresh : BitVec 16) : BitVec 2 := if belowThreshold c thresh then 2 else 3

/-- `EdgeHandler(c)` (R163); outside `IDLE` it changes nothing (R165). -/
def edgeHandler (c : BitVec 16) (s : State) : State :=
  if s.rxState ≠ .idle then s
  else { s with edgeIe := false, rxCd := countdownFor c s.thresh }.setRxState .armedCountdown

/-- The sampling tick of `ARMED_COUNTDOWN`: data bit 0 (R170). -/
def rxFirstSample (lvl : Bool) (s : State) : State :=
  { s with rxShift := levelByte lvl, rxBitcnt := 1, rxPhase := false }.setRxState .receiving

/-- `RxArmed(lvl)`, in the order of `RX_CD_MODE` (R170). -/
def rxArmed (lvl : Bool) (s : State) : State :=
  match s.cfg.rxCdMode with
  | .testThenDecrement =>
    if s.rxCd ≠ 0 then { s with rxCd := s.rxCd - 1 } else rxFirstSample lvl s
  | .decrementThenTest =>
    let t := { s with rxCd := s.rxCd - 1 }
    if t.rxCd ≠ 0 then t else rxFirstSample lvl t

/-- Data bit capture (R172). -/
def rxDataBit (lvl : Bool) (s : State) : State :=
  { s with
    rxShift := s.rxShift ||| (levelByte lvl <<< s.rxBitcnt.toNat)
    rxBitcnt := s.rxBitcnt + 1 }

/-- `append(RXF, RX_SHIFT)`, with `STATUS.RXOVF <- 1` on FULL (R173). -/
def rxPush (s : State) : State :=
  match fifoAppend s.cfg.capRx s.rxf s.rxShift with
  | some f => { s with rxf := f }
  | none => s.setOverflow

/-- Both stop-bit outcomes: accumulator cleared, `IDLE`, edge interrupt enabled (R173 to R175). -/
def rxFrameDone (s : State) : State :=
  { s with rxShift := 0, rxBitcnt := 0, edgeIe := true }.setRxState .idle

/-- The stop-bit slot: a high level pushes the byte (R173), a low level drops it (R174). -/
def rxStopBit (lvl : Bool) (s : State) : State :=
  rxFrameDone (if lvl then rxPush s else s)

/-- `RECEIVING`: the phase gate, then a data bit or the stop bit (R171). -/
def rxReceiving (lvl : Bool) (s : State) : State :=
  let t := { s with rxPhase := !s.rxPhase }
  if t.rxPhase then t
  else if t.rxBitcnt.toNat < 8 then rxDataBit lvl t
  else rxStopBit lvl t

/-- `RxStep(lvl)`: dispatch on `STATUS.RXS` (R168, R169). -/
def rxStep (lvl : Bool) (s : State) : State :=
  match s.rxState with
  | .idle => s
  | .armedCountdown => rxArmed lvl s
  | .receiving => rxReceiving lvl s
  | .reserved => s

end Sys2Proof.Machine
end

