-- ==== Sys2Proof/Machine/TxEngine.lean ====
section
/-! DEFINITION. The TX engine (43_tx_engine.md R190 to R201): the TX step of a tick. -/

namespace Sys2Proof.Machine

/-- `IDLE`: start a frame if a byte is pending (R192). -/
def txIdle (s : State) : State :=
  if 1 ≤ s.txf.top.toNat then
    { s with txd := false, txShift := fifoRead s.txf 0, txBitcnt := 0 }.setTxState .sentStartBit
  else s

/-- `SENT_START_BIT`: data bit 0 (R193). -/
def txStartSent (s : State) : State :=
  { s with txd := bitOf s.txShift 0, txBitcnt := s.txBitcnt + 1 }.setTxState .sendingData

/-- The compaction attempt of R195 and R196: `try_lock`, then `compact_front` and `unlock` and `IDLE` on
success, the state `locked` on contention. -/
def txCompact (locked : TxState) (s : State) : State :=
  match tryLock s.txf with
  | some f => { s with txf := unlock (compactFront f) }.setTxState .idle
  | none => s.setTxState locked

/-- `SENDING_DATA`: the next data bit (R194), or the stop bit and the compaction attempt (R195). -/
def txSending (s : State) : State :=
  if s.txBitcnt.toNat < 8 then
    { s with txd := bitOf s.txShift s.txBitcnt, txBitcnt := s.txBitcnt + 1 }
  else txCompact .bufferLocked { s with txd := true }

/-- `BUFFER_LOCKED`: retry (R196). -/
def txLocked (s : State) : State := txCompact .bufferLocked s

/-- `TxStep()`: the phase gate, then dispatch on `STATUS.TXS` (R190). -/
def txStep (s : State) : State :=
  let t := { s with txPhase := !s.txPhase }
  if t.txPhase then t
  else
    match t.txState with
    | .idle => txIdle t
    | .sentStartBit => txStartSent t
    | .sendingData => txSending t
    | .bufferLocked => txLocked t

end Sys2Proof.Machine
end

