-- ==== Sys2Proof/Machine/Events.lean ====
section
/-! DEFINITION. The meanings of the three events (45_events.md R260 to R266). -/

namespace Sys2Proof.Machine

/-- `TickHandler(lvl)`: RX step, TX step, then the compaction service of `RXF` and of `TXF` (R260). -/
def tickHandler (lvl : Bool) (s : State) : State :=
  service .tx (service .rx (txStep (rxStep lvl s)))

/-- `TICK lvl` (R260): it can occur only while the timer runs with both enables (R261). -/
def execTick (lvl : Bool) (s : State) : Host.Outcome State Fault Refusal :=
  eventStep (.tick lvl) (fun t =>
    if !t.tickReady then .refused .tickCannotOccur
    else if !t.legal then .fault .illegalState
    else .next (takeInterrupt (tickHandler lvl) t)) s

/-- `EDGE c` (R262): delivered to the handler, latched, or lost; a delivered count is at most `TMR_TOP`
(R264). -/
def execEdge (cnt : BitVec 16) (s : State) : Host.Outcome State Fault Refusal :=
  eventStep (.edge cnt) (fun t =>
    if t.edgeReady then
      if countAdmitted cnt t.tmrTop then .next (takeInterrupt (edgeHandler cnt) t)
      else .refused .countAboveTop
    else if t.cfg.edgeLatch = .latched then .next { t with edgePend := true }
    else .next t) s

/-- `EDGE_FIRE c` (R263): the latched edge is delivered. -/
def execEdgeFire (cnt : BitVec 16) (s : State) : Host.Outcome State Fault Refusal :=
  eventStep (.edgeFire cnt) (fun t =>
    if !t.edgeFireReady then .refused .edgeFireCannotOccur
    else if countAdmitted cnt t.tmrTop then
      .next (takeInterrupt (fun u => edgeHandler cnt { u with edgePend := false }) t)
    else .refused .countAboveTop) s

end Sys2Proof.Machine
end

