-- ==== Sys2Proof/Machine/Facade.lean ====
section
/-! DEFINITION. The meanings of the nine commands (44_facade.md R220 to R234). One execution of a command is
one micro-step of it: the first when the foreground is idle, else the one `FG_STEP` names (assumption log 4). -/

namespace Sys2Proof.Machine

/-- `NOP` (R233): N1 returns 0 and "Reads and writes nothing", `FG_STEP` included (assumption log 5). -/
def execNop (s : State) : Host.Outcome State Fault Refusal :=
  foregroundStep .nop .n1 (fun l t =>
    match l with
    | .n1 => .next (deliver 0 t)
    | _ => .fault .illegalState) s

/-- The effects of a successful INITIALISE, in the order of R224. -/
def initialiseEffects (idx : BitVec 3) (ts : TimerSetting) (s : State) : State :=
  { s with
    rxf := { s.rxf with top := 0, lock := false, dirty := false }
    txf := { s.txf with top := 0, lock := false, dirty := false }
    txdOe := true
    txd := true
    edgeIe := true
    edgePend := false
    rxShift := 0
    rxBitcnt := 0
    rxPhase := false
    rxCd := 0
    txShift := 0
    txBitcnt := 0
    txPhase := false
    rateSel := idx
    tmrPs := BitVec.ofNat 3 ts.ps
    tmrTop := BitVec.ofNat 16 ts.reload
    thresh := BitVec.ofNat 16 ts.thresh
    tmrRun := true
    tickIe := true
    status := 0x00
    gie := true }

/-- I1 of INITIALISE (R222, R223): result 1 with the timer running, `F_INIT_INTERRUPTIBLE` with interrupts
enabled, result 2 where the environment's draw gives no storage, else the effects of R224 and result 0. A failure
writes no field, `FG_STEP` included (assumption log 5). -/
def initialiseI1 (idx : BitVec 3) (s : State) : Host.Outcome State Fault Refusal :=
  if s.tmrRun then .next (deliver 1 s)
  else if s.gie then .next (raiseFault .initInterruptible s)
  else if !s.storageOk then .next (deliver 2 s)
  else
    match timerSetting s.cfg idx.toNat with
    | some ts => .next (deliverFrom .i1 0 (initialiseEffects idx ts s))
    | none => .refused .noMachine

/-- `INITIALISE idx` (R222). -/
def execInitialise (idx : BitVec 3) (s : State) : Host.Outcome State Fault Refusal :=
  foregroundStep (.initialise idx) .i1 (fun l t =>
    match l with
    | .i1 => initialiseI1 idx t
    | _ => .fault .illegalState) s

/-- PC1: spin while `TXF.LOCK = 1` (R225). -/
def putCharPc1 (b : Byte) (s : State) : State :=
  if s.txf.lock then goTo (.putChar b) .pc1 s else goTo (.putChar b) .pc2 s

/-- PC2: the masked test-and-set; on failure back to PC1 (R225, R133). -/
def putCharPc2 (b : Byte) (s : State) : State :=
  let (t, ok) := testAndSet .tx s
  if ok then goTo (.putChar b) .pc3 t else goTo (.putChar b) .pc1 t

/-- PC3: read the count; a full FIFO goes to PC6 with `FG_ACC = 0` (R225). -/
def putCharPc3 (b : Byte) (s : State) : State :=
  if s.cfg.capTx ≤ s.txf.top.toNat then
    goTo (.putChar b) .pc6 { s with fgT := s.txf.top, fgAcc := false }
  else goTo (.putChar b) .pc4 { s with fgT := s.txf.top }

/-- PC4: write the byte (R225). -/
def putCharPc4 (b : Byte) (s : State) : State :=
  goTo (.putChar b) .pc5 { s with txf := fifoWrite s.txf s.fgT.toNat b }

/-- PC5: write the count (R225). -/
def putCharPc5 (b : Byte) (s : State) : State :=
  goTo (.putChar b) .pc6 { s with txf := { s.txf with top := s.fgT + 1 }, fgAcc := true }

/-- PC6: release the lock and return `FG_ACC` (R225, R134). -/
def putCharPc6 (s : State) : State :=
  deliver (flagValue s.fgAcc) { s with txf := unlock s.txf }

/-- `PUT_CHAR b` (R225). A slot or count outside `0..CAP_TX` at PC4 or PC5 is a state no rule reaches. -/
def execPutChar (b : Byte) (s : State) : Host.Outcome State Fault Refusal :=
  foregroundStep (.putChar b) .pc1 (fun l t =>
    match l with
    | .pc1 => .next (putCharPc1 b t)
    | .pc2 => .next (putCharPc2 b t)
    | .pc3 => .next (putCharPc3 b t)
    | .pc4 => if t.slotExists .tx t.fgT.toNat then .next (putCharPc4 b t) else .fault .illegalState
    | .pc5 => if t.slotExists .tx t.fgT.toNat then .next (putCharPc5 b t) else .fault .illegalState
    | .pc6 => .next (putCharPc6 t)
    | _ => .fault .illegalState) s

/-- DP1: read the count; 0 is returned at once (R227). -/
def dataPendingDp1 (s : State) : State :=
  let t := { s with fgT := s.rxf.top }
  if s.rxf.top = 0 then deliverFrom .dp1 0 t else goTo .dataPending .dp2 t

/-- DP2: hold while a compaction is outstanding (R227). -/
def dataPendingDp2 (s : State) : State :=
  if s.rxf.dirty then goTo .dataPending .dp2 s else goTo .dataPending .dp3 s

/-- DP3: read and return the count (R227). -/
def dataPendingDp3 (s : State) : State :=
  deliver (byteValue s.rxf.top) { s with fgT := s.rxf.top }

/-- `DATA_PENDING` (R227). -/
def execDataPending (s : State) : Host.Outcome State Fault Refusal :=
  foregroundStep .dataPending .dp1 (fun l t =>
    match l with
    | .dp1 => .next (dataPendingDp1 t)
    | .dp2 => .next (dataPendingDp2 t)
    | .dp3 => .next (dataPendingDp3 t)
    | _ => .fault .illegalState) s

/-- GC1: hold while a compaction is outstanding (R228). -/
def getCharGc1 (s : State) : State :=
  if s.rxf.dirty then goTo .getChar .gc1 s else goTo .getChar .gc2 s

/-- GC2: an empty FIFO raises `F_GETCHAR_EMPTY`; else read the front byte (R228, R292). -/
def getCharGc2 (s : State) : State :=
  if s.rxf.top = 0 then raiseFault .getcharEmpty s
  else goTo .getChar .gc3 { s with fgV := fifoRead s.rxf 0 }

/-- GC3: mark the front for removal and return the byte (R228). -/
def getCharGc3 (s : State) : State :=
  deliver (byteValue s.fgV) { s with rxf := { s.rxf with dirty := true } }

/-- `GET_CHAR` (R228). -/
def execGetChar (s : State) : Host.Outcome State Fault Refusal :=
  foregroundStep .getChar .gc1 (fun l t =>
    match l with
    | .gc1 => .next (getCharGc1 t)
    | .gc2 => if t.slotExists .rx 0 then .next (getCharGc2 t) else .fault .illegalState
    | .gc3 => .next (getCharGc3 t)
    | _ => .fault .illegalState) s

/-- `ENABLE_RECEIVE` (R229): ER1 writes `EDGE_IE <- 1` and returns 0. -/
def execEnableReceive (s : State) : Host.Outcome State Fault Refusal :=
  foregroundStep .enableReceive .er1 (fun l t =>
    match l with
    | .er1 => .next (deliverFrom .er1 0 { t with edgeIe := true })
    | _ => .fault .illegalState) s

/-- `DISABLE_RECEIVE` (R230): DR1 writes `EDGE_IE <- 0` and returns 0. -/
def execDisableReceive (s : State) : Host.Outcome State Fault Refusal :=
  foregroundStep .disableReceive .dr1 (fun l t =>
    match l with
    | .dr1 => .next (deliverFrom .dr1 0 { t with edgeIe := false })
    | _ => .fault .illegalState) s

/-- `READ_STATUS` (R231): RS1 returns the status word. -/
def execReadStatus (s : State) : Host.Outcome State Fault Refusal :=
  foregroundStep .readStatus .rs1 (fun l t =>
    match l with
    | .rs1 => .next (deliverFrom .rs1 (byteValue (readStatusWord t.status)) t)
    | _ => .fault .illegalState) s

/-- `CLEAR_OVERFLOW` (R232): CO1 clears `STATUS.RXOVF` with interrupts masked and returns 0. -/
def execClearOverflow (s : State) : Host.Outcome State Fault Refusal :=
  foregroundStep .clearOverflow .co1 (fun l t =>
    match l with
    | .co1 => .next (deliverFrom .co1 0 (masked State.clearOverflow t))
    | _ => .fault .illegalState) s

end Sys2Proof.Machine
end

