-- ==== Sys2Proof/Machine/Dispatch.lean ====
section
/-! DEFINITION. The meaning of each operation: one arm per constructor of Instr. -/

namespace Sys2Proof.Machine

def exec (i : Instr) (s : State) : Host.Outcome State Fault Refusal :=
  match i with
  | .nop => Sys2Proof.Machine.execNop s
  | .initialise idx => Sys2Proof.Machine.execInitialise idx s
  | .putChar b => Sys2Proof.Machine.execPutChar b s
  | .dataPending => Sys2Proof.Machine.execDataPending s
  | .getChar => Sys2Proof.Machine.execGetChar s
  | .enableReceive => Sys2Proof.Machine.execEnableReceive s
  | .disableReceive => Sys2Proof.Machine.execDisableReceive s
  | .readStatus => Sys2Proof.Machine.execReadStatus s
  | .clearOverflow => Sys2Proof.Machine.execClearOverflow s
  | .tick lvl => Sys2Proof.Machine.execTick lvl s
  | .edge cnt => Sys2Proof.Machine.execEdge cnt s
  | .edgeFire cnt => Sys2Proof.Machine.execEdgeFire cnt s

end Sys2Proof.Machine
end

