-- ==== Sys2Proof/Decode.lean ====
section
/-! DEFINITION. The decoder and the encoder of the 32-bit words (30_encoding.md R80 to R89, R95), both
written from the layout of R80, the formats of R81 and the opcode map of R82. "Every word is 32 bits and
decodes the same way in every state" (R89), so the decoder reads no state; the build-dependent operand
checks are `Instr.wellFormed`. -/

namespace Sys2Proof

/-- Why a word is no operation (R84). -/
inductive DecodeError where
  /-- `OPC` in `0x09..0x7F` or `0x83..0xFF`. -/
  | reservedOpcode
  /-- `RSV`, bits 23:16, is not 0. -/
  | reservedField
  /-- An operand bit that R81 requires to be 0 is 1. -/
  | operandBits
  /-- Fewer than four bytes of a serialised word (R95). -/
  | truncated
  /-- An event word on the command port, or a command word on the event port (R82, R84). -/
  | wrongPort
deriving DecidableEq, Repr

/-- `OPC`, bits 31:24 (R80). -/
def opcOf (w : Word) : BitVec 8 := w.extractLsb' 24 8

/-- `RSV`, bits 23:16 (R80). -/
def rsvOf (w : Word) : BitVec 8 := w.extractLsb' 16 8

/-- `OPND`, bits 15:0 (R80). -/
def opndOf (w : Word) : BitVec 16 := w.extractLsb' 0 16

/-- Format N: no operand, `OPND = 0` (R81). -/
def formatN (opnd : BitVec 16) (i : Instr) : Except DecodeError Instr :=
  if opnd = 0 then .ok i else .error .operandBits

/-- Format B: `OPND[7:0]` is the byte (R81). -/
def formatB (opnd : BitVec 16) (f : Byte → Instr) : Except DecodeError Instr :=
  if opnd.extractLsb' 8 8 = 0 then .ok (f (opnd.extractLsb' 0 8)) else .error .operandBits

/-- Format I: `OPND[2:0]` is the rate index (R81). -/
def formatI (opnd : BitVec 16) (f : BitVec 3 → Instr) : Except DecodeError Instr :=
  if opnd.extractLsb' 3 13 = 0 then .ok (f (opnd.extractLsb' 0 3)) else .error .operandBits

/-- Format L: `OPND[0]` is the level (R81). -/
def formatL (opnd : BitVec 16) (f : Bool → Instr) : Except DecodeError Instr :=
  if opnd.extractLsb' 1 15 = 0 then .ok (f (opnd.getLsbD 0)) else .error .operandBits

/-- Format C: `OPND` is the count; the check of `OPND[15:W]` is the build's (`Config.countFits`). -/
def formatC (opnd : BitVec 16) (f : BitVec 16 → Instr) : Except DecodeError Instr :=
  .ok (f opnd)

/-- The decoder by opcode (R82). -/
def decodeOperand (opc : BitVec 8) (opnd : BitVec 16) : Except DecodeError Instr :=
  if opc = 0x00 then formatN opnd .nop
  else if opc = 0x01 then formatI opnd .initialise
  else if opc = 0x02 then formatB opnd .putChar
  else if opc = 0x03 then formatN opnd .dataPending
  else if opc = 0x04 then formatN opnd .getChar
  else if opc = 0x05 then formatN opnd .enableReceive
  else if opc = 0x06 then formatN opnd .disableReceive
  else if opc = 0x07 then formatN opnd .readStatus
  else if opc = 0x08 then formatN opnd .clearOverflow
  else if opc = 0x80 then formatL opnd .tick
  else if opc = 0x81 then formatC opnd .edge
  else if opc = 0x82 then formatC opnd .edgeFire
  else .error .reservedOpcode

/-- The operation a word stands for, or why it stands for none (R80 to R84). -/
def decodeWord (w : Word) : Except DecodeError Instr :=
  if rsvOf w = 0 then decodeOperand (opcOf w) (opndOf w) else .error .reservedField

/-- Serialisation order: "least-significant byte first (`OPND[7:0]` first, `OPC` last)" (R95). -/
def bytesOfWord (w : Word) : List Byte :=
  [w.extractLsb' 0 8, w.extractLsb' 8 8, w.extractLsb' 16 8, w.extractLsb' 24 8]

/-- The word four bytes carry, the first byte least significant (R95). -/
def wordOfBytes (b0 b1 b2 b3 : Byte) : Word := b3 ++ b2 ++ b1 ++ b0

/-- The decoder on any bytes: the first operation and the bytes after it. -/
def decodeBytes : List Byte → Except DecodeError (Instr × List Byte)
  | b0 :: b1 :: b2 :: b3 :: rest =>
    match decodeWord (wordOfBytes b0 b1 b2 b3) with
    | .ok i => .ok (i, rest)
    | .error e => .error e
  | _ => .error .truncated

/-- The operation is a command: it comes on the command port only (R82). -/
def Instr.isCommand : Instr → Bool
  | .nop => true
  | .initialise _ => true
  | .putChar _ => true
  | .dataPending => true
  | .getChar => true
  | .enableReceive => true
  | .disableReceive => true
  | .readStatus => true
  | .clearOverflow => true
  | .tick _ => false
  | .edge _ => false
  | .edgeFire _ => false

/-- What a word on the command port means (R82, R84). -/
def decodeCommand (w : Word) : Except DecodeError Instr :=
  match decodeWord w with
  | .ok i => if i.isCommand then .ok i else .error .wrongPort
  | .error e => .error e

/-- What a word on the event port means (R82, R84). -/
def decodeEvent (w : Word) : Except DecodeError Instr :=
  match decodeWord w with
  | .ok i => if i.isCommand then .error .wrongPort else .ok i
  | .error e => .error e

/-- The decoder on the bits of an opcode-table row: the word laid out as bytes (R95) and read back. -/
def decodeTableWord (nbits w : Nat) : Option Instr :=
  match decodeBytes (bytesOfWord (BitVec.ofNat 32 (w % 2 ^ nbits))) with
  | .ok (i, _) => some i
  | .error _ => none

/-- `OPC` of an operation (R82). -/
def Instr.opcode : Instr → BitVec 8
  | .nop => 0x00
  | .initialise _ => 0x01
  | .putChar _ => 0x02
  | .dataPending => 0x03
  | .getChar => 0x04
  | .enableReceive => 0x05
  | .disableReceive => 0x06
  | .readStatus => 0x07
  | .clearOverflow => 0x08
  | .tick _ => 0x80
  | .edge _ => 0x81
  | .edgeFire _ => 0x82

/-- `OPND` of an operation: its operand zero-extended, the other bits 0 (R81). -/
def Instr.operand : Instr → BitVec 16
  | .nop => 0
  | .initialise idx => idx.zeroExtend 16
  | .putChar byte => byte.zeroExtend 16
  | .dataPending => 0
  | .getChar => 0
  | .enableReceive => 0
  | .disableReceive => 0
  | .readStatus => 0
  | .clearOverflow => 0
  | .tick lvl => if lvl then 1 else 0
  | .edge cnt => cnt
  | .edgeFire cnt => cnt

/-- The word `{OPC, 0x00, OPND}` (R80, R90). -/
def packWord (opc : BitVec 8) (opnd : BitVec 16) : Word := opc ++ (0 : BitVec 8) ++ opnd

/-- The word of an operation. -/
def encode (i : Instr) : Word := packWord i.opcode i.operand

/-- One row of spec/opcode_table.json: the words `w` with `w &&& mask = pattern`. -/
structure OpcodeRow where
  mnemonic : String
  pattern : Word
  mask : Word
deriving DecidableEq, Repr

/-- spec/opcode_table.json, with the masks of format C that a build of counter width `W` has: the table's
`0xFFFFFF00` with `W = 8`, "mask 0xFFFF0000" with `W = 16`. -/
def opcodeTable (width : TimerWidth) : List OpcodeRow :=
  let countMask : Word := match width with
    | .w8 => 0xFFFFFF00
    | .w16 => 0xFFFF0000
  [ ⟨"NOP", 0x00000000, 0xFFFFFFFF⟩,
    ⟨"INITIALISE", 0x01000000, 0xFFFFFFF8⟩,
    ⟨"PUT_CHAR", 0x02000000, 0xFFFFFF00⟩,
    ⟨"DATA_PENDING", 0x03000000, 0xFFFFFFFF⟩,
    ⟨"GET_CHAR", 0x04000000, 0xFFFFFFFF⟩,
    ⟨"ENABLE_RECEIVE", 0x05000000, 0xFFFFFFFF⟩,
    ⟨"DISABLE_RECEIVE", 0x06000000, 0xFFFFFFFF⟩,
    ⟨"READ_STATUS", 0x07000000, 0xFFFFFFFF⟩,
    ⟨"CLEAR_OVERFLOW", 0x08000000, 0xFFFFFFFF⟩,
    ⟨"TICK", 0x80000000, 0xFFFFFFFE⟩,
    ⟨"EDGE", 0x81000000, countMask⟩,
    ⟨"EDGE_FIRE", 0x82000000, countMask⟩ ]

/-- The row's pattern fits the word. -/
def OpcodeRow.fits (r : OpcodeRow) (w : Word) : Bool := w &&& r.mask == r.pattern

/-- The mnemonic of an operation (R82). -/
def Instr.mnemonic : Instr → String
  | .nop => "NOP"
  | .initialise _ => "INITIALISE"
  | .putChar _ => "PUT_CHAR"
  | .dataPending => "DATA_PENDING"
  | .getChar => "GET_CHAR"
  | .enableReceive => "ENABLE_RECEIVE"
  | .disableReceive => "DISABLE_RECEIVE"
  | .readStatus => "READ_STATUS"
  | .clearOverflow => "CLEAR_OVERFLOW"
  | .tick _ => "TICK"
  | .edge _ => "EDGE"
  | .edgeFire _ => "EDGE_FIRE"

end Sys2Proof
end

