-- ==== Sys2Proof/Machine/Fetch.lean ====
section
/-! DEFINITION. Which operation a step runs: the block fetches no program (20_memory.md R72); the
environment chooses between an event and a foreground micro-step (R65), and the foreground goes on with the
command in flight or takes the next word of the command port (R220). -/

namespace Sys2Proof.Machine

/-- What the turn gives: an operation to run in a state, or an outcome already settled. -/
inductive Fetched where
  | run (i : Instr) (s : State)
  | done (o : Host.Outcome State Fault Refusal)

/-- An event turn: a word that is no event has no step (R84). -/
def fetchEvent (w : Word) (s : State) : Fetched :=
  match decodeEvent w with
  | .ok i => .run i s
  | .error _ => .done (.refused .notAnEvent)

/-- A foreground turn: the command in flight, else the next command word; an illegal word raises
`F_ILLEGAL_COMMAND` when it is taken (R84, R220, R290), and nothing is taken before a due EDGE_FIRE (R263). -/
def fetchForeground (s : State) : Fetched :=
  match s.fgOp with
  | some i => .run i s
  | none =>
    match s.cmdPort with
    | [] => .done (.refused .noCommand)
    | c :: rest =>
      let t := { s with cmdPort := rest, storageOk := c.storageOk }
      match decodeCommand c.word with
      | .ok i => .run i t
      | .error _ =>
        if s.edgeFireReady then .done (.refused .edgeFireFirst)
        else .done (.next (raiseFault .illegalCommand t))

/-- The next turn: no agent steps once `FAULT` is set (R284), and no machine exists for an invalid
configuration (R116); otherwise the environment's next choice, or the foreground when it offers none. -/
def fetch (s : State) : Fetched :=
  match s.fault with
  | some c => .done (.fault (.stopped c))
  | none =>
    if !s.cfg.valid then .done (.refused .noMachine)
    else
      match s.script with
      | [] => fetchForeground s
      | .foreground :: rest => fetchForeground { s with script := rest }
      | .event w :: rest => fetchEvent w { s with script := rest }

/-- The word goes to the event port (`OPC` from `0x80` on) or the command port (R82). -/
def onEventPort (w : Word) : Bool := w.getLsbD 31

/-- Offer a word as the next step: an event word as the environment's next choice; a command word at the
head of the command port, the foreground idle and next to move. -/
def offerWord (w : Word) (s : State) : State :=
  if onEventPort w then { s with script := .event w :: s.script }
  else
    { s with
      fgOp := none
      cmdPort := ⟨w, s.storageOk⟩ :: s.cmdPort
      script := .foreground :: s.script }

end Sys2Proof.Machine
end

