-- ==== Sys2Proof/Machine/Step.lean ====
section
/-! DEFINITION. One step: "either one foreground micro-step or one whole event" (20_memory.md R65). -/

namespace Sys2Proof.Machine

/-- One step of the run. -/
def step (s : State) : Host.Outcome State Fault Refusal :=
  match fetch s with
  | .run i t => exec i t
  | .done o => o

/-- The state whose next step runs the word with the low `nbits` bits of `w` (assumption log 20). -/
def State.withFetchWord (s : State) (nbits w : Nat) : State :=
  offerWord (BitVec.ofNat 32 (w % 2 ^ nbits)) s

end Sys2Proof.Machine
end

