-- ==== Sys2Proof/Machine/Assembler.lean ====
section
/-! DEFINITION. The text syntax (30_encoding.md R90): the mnemonic of R82, then for formats B, I, L and C one
operand, decimal or `0x` hexadecimal; text after `;` is a comment. Text is a list of characters. -/

namespace Sys2Proof.Machine

/-- The line up to its comment. -/
def uncommented : List Char → List Char
  | [] => []
  | c :: rest => if c = ';' then [] else c :: uncommented rest

/-- The words of a line between blanks: `acc` is the word being read, in reverse. -/
def wordsFrom (acc : List Char) : List Char → List (List Char)
  | [] => if acc.isEmpty then [] else [acc.reverse]
  | c :: rest =>
    if c = ' ' ∨ c = '\t' then
      (if acc.isEmpty then wordsFrom [] rest else acc.reverse :: wordsFrom [] rest)
    else wordsFrom (c :: acc) rest

/-- A digit's value in a base of at most 16. -/
def digitValue (base : Nat) (c : Char) : Option Nat :=
  let n := c.toNat
  let v :=
    if 48 ≤ n ∧ n ≤ 57 then n - 48
    else if 97 ≤ n ∧ n ≤ 102 then n - 87
    else if 65 ≤ n ∧ n ≤ 70 then n - 55
    else base
  if v < base then some v else none

/-- The digits of a number after the value `acc`. -/
def digitsFrom (base acc : Nat) : List Char → Option Nat
  | [] => some acc
  | c :: rest =>
    match digitValue base c with
    | some d => digitsFrom base (acc * base + d) rest
    | none => none

/-- A decimal or `0x` hexadecimal number. -/
def numberOf : List Char → Option Nat
  | [] => none
  | '0' :: 'x' :: c :: rest => digitsFrom 16 0 (c :: rest)
  | cs => digitsFrom 10 0 cs

/-- The operation of a mnemonic without operand (format N). -/
def plainOperation (m : List Char) : Option Instr :=
  if m = ['N', 'O', 'P'] then some .nop
  else if m = ['D', 'A', 'T', 'A', '_', 'P', 'E', 'N', 'D', 'I', 'N', 'G'] then some .dataPending
  else if m = ['G', 'E', 'T', '_', 'C', 'H', 'A', 'R'] then some .getChar
  else if m = ['E', 'N', 'A', 'B', 'L', 'E', '_', 'R', 'E', 'C', 'E', 'I', 'V', 'E'] then
    some .enableReceive
  else if m = ['D', 'I', 'S', 'A', 'B', 'L', 'E', '_', 'R', 'E', 'C', 'E', 'I', 'V', 'E'] then
    some .disableReceive
  else if m = ['R', 'E', 'A', 'D', '_', 'S', 'T', 'A', 'T', 'U', 'S'] then some .readStatus
  else if m = ['C', 'L', 'E', 'A', 'R', '_', 'O', 'V', 'E', 'R', 'F', 'L', 'O', 'W'] then
    some .clearOverflow
  else none

/-- The operation of a mnemonic with its operand, which must fit its format (formats I, B, L, C). -/
def operandOperation (m : List Char) (n : Nat) : Option Instr :=
  if m = ['I', 'N', 'I', 'T', 'I', 'A', 'L', 'I', 'S', 'E'] then
    if n < 8 then some (.initialise (BitVec.ofNat 3 n)) else none
  else if m = ['P', 'U', 'T', '_', 'C', 'H', 'A', 'R'] then
    if n < 256 then some (.putChar (BitVec.ofNat 8 n)) else none
  else if m = ['T', 'I', 'C', 'K'] then
    if n < 2 then some (.tick (n = 1)) else none
  else if m = ['E', 'D', 'G', 'E'] then
    if n < 65536 then some (.edge (BitVec.ofNat 16 n)) else none
  else if m = ['E', 'D', 'G', 'E', '_', 'F', 'I', 'R', 'E'] then
    if n < 65536 then some (.edgeFire (BitVec.ofNat 16 n)) else none
  else none

/-- The operation a line of text writes (R90). -/
def parseLine (line : List Char) : Option Instr :=
  match wordsFrom [] (uncommented line) with
  | [m] => plainOperation m
  | [m, a] =>
    match numberOf a with
    | some n => operandOperation m n
    | none => none
  | _ => none

/-- "A line assembles to `{OPC, 0x00, OPND}`" (R90). -/
def assembleLine (line : List Char) : Option Word := (parseLine line).map encode

end Sys2Proof.Machine
end

