-- ==== Sys2Proof/Machine/Pseudo.lean ====
section
/-! DEFINITION. The pseudo-operations (30_encoding.md R91, R92; 44_facade.md R226): what the host or the
environment does with several words. They have no opcode and are no part of `step`. -/

namespace Sys2Proof.Machine

/-- `TICKS n, lvl`: n events `TICK lvl` (R92). -/
def ticks (n : Nat) (lvl : Bool) : List Instr := List.replicate n (.tick lvl)

/-- `cd` of `RXFRAME`: the number of TICKs from the edge to the first sample (R92, R177). -/
def frameCountdown (mode : RxCdMode) (cnt thresh : BitVec 16) : Nat :=
  (countdownFor cnt thresh).toNat +
    match mode with
    | .testThenDecrement => 1
    | .decrementThenTest => 0

/-- The TICK levels of `RXFRAME`: `cd - 1` low, bit 0, two of each of the bits 1..7, two of the stop level
(R92). -/
def frameLevels (cd : Nat) (byte : Byte) (stop : Bool) : List Bool :=
  List.replicate (cd - 1) false ++ byte.getLsbD 0 ::
    ((List.range 7).flatMap (fun k => [byte.getLsbD (k + 1), byte.getLsbD (k + 1)]) ++ [stop, stop])

/-- `RXFRAME cnt, byte, stop` in a state: the events that deliver one frame (R92). -/
def rxFrame (s : State) (cnt : BitVec 16) (byte : Byte) (stop : Bool) : List Instr :=
  .edge cnt :: (frameLevels (frameCountdown s.cfg.rxCdMode cnt s.thresh) byte stop).map .tick

/-- The environment takes the events in turn, before anything else. -/
def offerEvents (es : List Instr) (s : State) : State :=
  { s with script := es.map (fun e => Turn.event (encode e)) ++ s.script }

/-- The events of a list, one `exec` each, stopping at the first fault or refusal. -/
def runEvents : List Instr → State → Host.Outcome State Fault Refusal
  | [], s => .next s
  | e :: es, s =>
    match exec e s with
    | .next t => runEvents es t
    | .fault r => .fault r
    | .refused r => .refused r

/-- At most `fuel` steps, until more than `n` results are delivered: the state reached, and the result word number
`n`, none where it is still to come. -/
def awaitResult (n : Nat) : Nat → State → Host.Outcome (State × Option Word) Fault Refusal
  | 0, s => .next (s, s.results[n]?)
  | fuel + 1, s =>
    match s.results[n]? with
    | some w => .next (s, some w)
    | none =>
      match step s with
      | .next t => awaitResult n fuel t
      | .fault r => .fault r
      | .refused r => .refused r

/-- The number of results delivered once every command issued so far has completed: one each (R86). -/
def resultsDue (s : State) : Nat :=
  s.results.length + (if s.fgOp.isSome then 1 else 0) + s.cmdPort.length

/-- The host puts a command word on the port and waits for that command's own result, at most `fuel` steps. -/
def issueAndWait (fuel : Nat) (i : Instr) (s : State) : Host.Outcome (State × Option Word) Fault Refusal :=
  awaitResult (resultsDue s) fuel { s with cmdPort := s.cmdPort ++ [⟨encode i, s.storageOk⟩] }

/-- `SEND b0, ..., b(n-1)`: PUT_CHAR for each byte in order, stopping at the first result 0; the answer is how many
were accepted (R91, R226). Each PUT_CHAR is given `fuel` steps; SEND has no result while one of them has none: it
did not complete in them, or the run stopped. -/
def send (fuel : Nat) : List Byte → State → Host.Outcome State Fault Refusal × Option Nat
  | [], s => (.next s, some 0)
  | b :: rest, s =>
    match issueAndWait fuel (.putChar b) s with
    | .next (t, none) => (.next t, none)
    | .next (t, some r) =>
      if r = resultWord 0 then (.next t, some 0)
      else
        let later := send fuel rest t
        (later.1, later.2.map (· + 1))
    | .fault r => (.fault r, none)
    | .refused r => (.refused r, none)

/-- `exec i` again and again until the foreground is idle, at most `fuel` times: the micro-steps of one
command with no event between them. -/
def runMicroSteps (i : Instr) : Nat → State → Host.Outcome State Fault Refusal
  | 0, s => .next s
  | fuel + 1, s =>
    match exec i s with
    | .next t => if t.fgOp = none then .next t else runMicroSteps i fuel t
    | .fault r => .fault r
    | .refused r => .refused r

end Sys2Proof.Machine
end

