-- ==== Sys2Proof/Safety.lean ====
section
/-! DEFINITION. The terms statements are made in: what a run shows (00_scope.md R11), which condition a command
reports (60_exceptions.md R280, R283), when a command or an event is admitted, the contents of a FIFO, and the
invariant of a run (10_state.md R54). -/

namespace Sys2Proof.Safety

open Sys2Proof.Machine

/-! The observation. -/

/-- What the outside sees of a state (R11): the results so far, the TX line where it is driven (R37), and the
status word as READ_STATUS reads it. -/
structure Observation where
  results : List Word
  txLine : Option Bool
  status : BitVec 8
deriving DecidableEq, Repr

def observe (s : State) : Observation where
  results := s.results
  txLine := if s.txdOe then some s.txd else none
  status := readStatusWord s.status

/-- "A run is over when the foreground has no command in flight and the host issues no more commands" (R11). -/
def runOver (s : State) : Bool := s.fgOp.isNone && s.cmdPort.isEmpty

/-- A good final state: the run is over and no model fault is set (R11, R284). -/
def goodFinal (s : State) : Bool := runOver s && s.fault.isNone

/-! The conditions of 60_exceptions.md R280. -/

/-- The source's five conditions and the four model faults. -/
inductive Condition where
  | setupTimerRunning
  | setupNoStorage
  | txFull
  | rxOverflow
  | rxFraming
  | model (c : FaultCode)
deriving DecidableEq, Repr

/-- The kinds of R283. -/
inductive ConditionKind where
  | returned
  | stickyFlag
  | silent
  | modelFault
deriving DecidableEq, Repr

/-- The codes of R280; no register holds `0x01` to `0x05`. -/
def Condition.code : Condition → BitVec 8
  | .setupTimerRunning => 0x01
  | .setupNoStorage => 0x02
  | .txFull => 0x03
  | .rxOverflow => 0x04
  | .rxFraming => 0x05
  | .model c => c.code

def Condition.kind : Condition → ConditionKind
  | .setupTimerRunning => .returned
  | .setupNoStorage => .returned
  | .txFull => .returned
  | .rxOverflow => .stickyFlag
  | .rxFraming => .silent
  | .model _ => .modelFault

/-- The condition the result word of a command reports, if any (R280, 30_encoding.md R87). -/
def reportedBy (i : Instr) (result : Word) : Option Condition :=
  match i with
  | .initialise _ =>
    if result = 1 then some .setupTimerRunning else if result = 2 then some .setupNoStorage else none
  | .putChar _ => if result = 0 then some .txFull else none
  | _ => none

/-! Admission. -/

/-- The foreground can take command `i`: no fault, no EDGE_FIRE due, no command in flight, the command legal
for the build and, where it needs the link, the link initialised (R220, R221, R263, R284). -/
def canTake (i : Instr) (s : State) : Prop :=
  s.fault = none ∧ s.edgeFireReady = false ∧ s.fgOp = none ∧ i.wellFormed s.cfg = true ∧
    (needsLink i && s.notinit) = false

/-- Command `i` is in flight at micro-step `l` and the foreground may move (R220, R263, R284). -/
def inFlight (i : Instr) (l : FgStep) (s : State) : Prop :=
  s.fault = none ∧ s.edgeFireReady = false ∧ s.fgOp = some i ∧ s.fgStep = l

/-- A TICK can occur and every field it reads is legal (R261, R266, R54). -/
def canTick (s : State) : Prop := s.fault = none ∧ s.tickReady = true ∧ s.legal = true

/-- The script leaves the turn to the foreground, and `rest` is what is left of it. -/
def foregroundTurn (s : State) (rest : List Turn) : Prop :=
  (s.script = [] ∧ rest = []) ∨ s.script = .foreground :: rest

/-! FIFO contents and the tick's effects on them. -/

/-- The valid bytes, oldest first (R48). -/
def contents (f : Fifo) : List Byte := (List.range f.top.toNat).map f.data.read

/-- The next tick is an acting tick of the RX engine's `RECEIVING` (R171). -/
def rxActs (s : State) : Bool := decide (s.rxState = .receiving) && s.rxPhase

/-- A TICK at level `lvl` ends a frame in `s`, validly if the level is high (R173, R174). -/
def frameEnds (s : State) : Bool := rxActs s && decide (s.rxBitcnt.toNat = 8)

/-- What a TICK at level `lvl` appends to `RXF` (R135, R173): nothing when the FIFO is full. -/
def received (lvl : Bool) (s : State) : List Byte :=
  if frameEnds s && lvl && decide (s.rxf.top.toNat < s.cfg.capRx) then [s.rxShift] else []

/-- The next tick is an acting tick of the TX engine (R190). -/
def txActs (s : State) : Bool := s.txPhase

/-- A TICK in `s` attempts the TX engine's compaction (R195, R196). -/
def txAttempts (s : State) : Bool :=
  txActs s && ((decide (s.txState = .sendingData) && decide (s.txBitcnt.toNat = 8)) ||
    decide (s.txState = .bufferLocked))

/-- A TICK in `s` removes the front of `TXF`: the attempt finds the lock free (R195, R196). -/
def txRemoves (s : State) : Bool := txAttempts s && !s.txf.lock

/-- The level of bit period `k` of the frame of `b`: start bit, data bits least significant first, stop bit
(R198). -/
def frameBit (b : Byte) (k : Nat) : Bool :=
  if k = 0 then false else if k ≤ 8 then b.getLsbD (k - 1) else true

/-! The invariant of a run. -/

/-- The foreground holds `TXF.LOCK`: PUT_CHAR from PC3 to PC6 (R54(d), R141). -/
def holdsTxLock (s : State) : Bool :=
  match s.fgOp, s.fgStep with
  | some (.putChar _), .pc3 => true
  | some (.putChar _), .pc4 => true
  | some (.putChar _), .pc5 => true
  | some (.putChar _), .pc6 => true
  | _, _ => false

/-- The micro-steps at which a command can be found in flight between two steps (44_facade.md). -/
def restsAt : Instr → FgStep → Bool
  | .putChar _, .pc1 => true
  | .putChar _, .pc2 => true
  | .putChar _, .pc3 => true
  | .putChar _, .pc4 => true
  | .putChar _, .pc5 => true
  | .putChar _, .pc6 => true
  | .dataPending, .dp2 => true
  | .dataPending, .dp3 => true
  | .getChar, .gc1 => true
  | .getChar, .gc2 => true
  | .getChar, .gc3 => true
  | _, _ => false

/-- Before the first successful INITIALISE the block is as reset left it, as far as any rule reads (R321). -/
structure Unstarted (s : State) : Prop where
  status : s.status = 0x80
  fgIdle : s.fgOp = none
  gie : s.gie = false
  tmrRun : s.tmrRun = false
  tickIe : s.tickIe = false
  edgeIe : s.edgeIe = false
  txdOe : s.txdOe = false

/-- After it: the invariants of R54, and the further facts they rest on. -/
structure Started (s : State) : Prop where
  /-- R54(b). -/
  notinit : s.notinit = false
  /-- R41, R47: the enables stay 1. -/
  gie : s.gie = true
  tmrRun : s.tmrRun = true
  tickIe : s.tickIe = true
  /-- R37. -/
  txdOe : s.txdOe = true
  /-- R54(a). -/
  rxs : s.rxState ≠ .reserved
  /-- R54(c). -/
  rxTop : s.rxf.top.toNat ≤ s.cfg.capRx
  txTop : s.txf.top.toNat ≤ s.cfg.capTx
  /-- R54(d). -/
  rxLock : s.rxf.lock = false
  txLock : s.txf.lock = holdsTxLock s
  /-- R54(e). -/
  txDirty : s.txf.dirty = false
  /-- R54(f). -/
  rxCd : s.cfg.rxCdMode = .decrementThenTest → s.rxState = .armedCountdown → s.rxCd ≠ 0
  /-- R54(g). -/
  rxBitcnt : s.rxState = .receiving → 1 ≤ s.rxBitcnt.toNat
  rxBitcntLegal : s.rxBitcnt.toNat ≤ 8
  /-- R54(h). -/
  txBitcnt : s.txState = .sendingData → 1 ≤ s.txBitcnt.toNat
  txBitcntStart : s.txState = .sentStartBit → s.txBitcnt = 0
  txBitcntLegal : s.txBitcnt.toNat ≤ 8
  /-- R54(i). -/
  txPending : s.txState ≠ .idle → 1 ≤ s.txf.top.toNat
  /-- The byte being sent is the front of `TXF` (R192, R69). -/
  txFront : s.txState ≠ .idle → s.txShift = s.txf.data.read 0
  /-- The line is high between frames and low in the start bit (R197, R198). -/
  txdHigh : s.txState = .idle ∨ s.txState = .bufferLocked → s.txd = true
  txdStart : s.txState = .sentStartBit → s.txd = false
  txdData : s.txState = .sendingData → s.txd = frameBit s.txShift s.txBitcnt.toNat
  /-- A popped byte is still counted until the compaction (R139). -/
  rxDirty : s.rxf.dirty = true → 1 ≤ s.rxf.top.toNat
  /-- The timer holds the table's values for `RATE_SEL` (R46, R120). -/
  timer : ∃ ts, timerSetting s.cfg s.rateSel.toNat = some ts ∧ s.tmrPs.toNat = ts.ps ∧
    s.tmrTop.toNat = ts.reload ∧ s.thresh.toNat = ts.thresh
  /-- A command in flight is at one of its micro-steps (R22, R51). -/
  step : ∀ i, s.fgOp = some i → restsAt i s.fgStep = true
  /-- PUT_CHAR between PC3 and PC5: the count read is still the count, and there is room (R225). -/
  putChar : ∀ b, s.fgOp = some (.putChar b) → s.fgStep = .pc4 ∨ s.fgStep = .pc5 →
    s.fgT = s.txf.top ∧ s.fgT.toNat < s.cfg.capTx
  /-- GET_CHAR past GC1: no compaction is outstanding; past GC2, the byte read is still the front (R228, R69). -/
  getChar : s.fgOp = some .getChar → s.fgStep = .gc2 ∨ s.fgStep = .gc3 → s.rxf.dirty = false
  getCharByte : s.fgOp = some .getChar → s.fgStep = .gc3 →
    1 ≤ s.rxf.top.toNat ∧ s.fgV = s.rxf.data.read 0

/-- The invariant of a run: it holds at reset and every step keeps it. -/
structure Inv (s : State) : Prop where
  /-- R116. -/
  build : s.cfg.valid = true
  /-- R28. -/
  reserved : s.status &&& 0x60 = 0
  /-- R40. -/
  edgePend : s.cfg.edgeLatch = .none → s.edgePend = false
  /-- The storages keep their canonical form and nothing outside `0..CAP_f - 1` (R60). -/
  rxMem : s.rxf.data.wf = true
  txMem : s.txf.data.wf = true
  rxBounds : ∀ a, s.cfg.capRx ≤ a → s.rxf.data.read a = Memory.unlisted
  txBounds : ∀ a, s.cfg.capTx ≤ a → s.txf.data.read a = Memory.unlisted
  phase : Unstarted s ∨ Started s

end Sys2Proof.Safety
end

