-- ==== Sys2Proof/Certificates/Slice0/Obligations.lean ====
section
/-! DEFINITION. The statements about the model. Each docstring names the rules of spec/ it formalises; an
equation `exec i s = .next { s with … }` says the whole next state, so it is also the frame. -/

open Sys2Proof Sys2Proof.Machine Sys2Proof.Safety

/-! Encoding. -/

/-- Words written out from 30_encoding.md R80 to R82 decode to the operations they stand for, and reserved ones
are refused by name. -/
def Obligations.DecodeWordsWrittenOut : Prop :=
  decodeWord 0x00000000 = .ok .nop ∧
  decodeWord 0x01000002 = .ok (.initialise 2) ∧
  decodeWord 0x02000055 = .ok (.putChar 0x55) ∧
  decodeWord 0x04000000 = .ok .getChar ∧
  decodeWord 0x07000000 = .ok .readStatus ∧
  decodeWord 0x80000001 = .ok (.tick true) ∧
  decodeWord 0x8100000A = .ok (.edge 10) ∧
  decodeWord 0x8200003C = .ok (.edgeFire 60) ∧
  decodeWord 0x09000000 = .error .reservedOpcode ∧
  decodeWord 0x83000000 = .error .reservedOpcode ∧
  decodeWord 0x02010055 = .error .reservedField ∧
  decodeWord 0x02000155 = .error .operandBits ∧
  decodeWord 0x80000002 = .error .operandBits

/-- Decoding the encoding of any operation, at every operand value, gives it back, also where the word is carried
as bytes, "least-significant byte first", and the bytes after it are left (R80 to R82, R95). -/
def Obligations.DecodeAfterEncode : Prop :=
  ∀ i : Instr, decodeWord (encode i) = .ok i ∧
    (bytesOfWord (encode i)).getLast? = some i.opcode ∧
    ∀ rest : List Byte, decodeBytes (bytesOfWord (encode i) ++ rest) = .ok (i, rest)

/-- A word that decodes is the encoding of what it decodes to: no bit is ignored (R80 to R82, R84). -/
def Obligations.EncodeAfterDecode : Prop :=
  ∀ (w : Word) (i : Instr), decodeWord w = .ok i → encode i = w

/-- The opcode table against the decoder, with every index enabled and edges latched, as the table's masks have it:
the rows a word fits are exactly the one of the operation it decodes to, so the rows do not overlap, and every other
word fits none (R82, R84). -/
def Obligations.DecoderMatchesOpcodeTable : Prop :=
  ∀ (width : TimerWidth) (w : Word),
    let cfg : Config := { Config.tc with width, edgeLatch := .latched, ratesEnabled := List.range 8 }
    ((opcodeTable width).filter (·.fits w)).map (·.mnemonic) =
      match decodeWord w with
      | .ok i => if i.wellFormed cfg then [i.mnemonic] else []
      | .error _ => []

/-! The step. -/

/-- A step runs the decoded operation: an event word the environment chooses, the command in flight, or the
next command word of the port, each in the state without the choice just made (R65, R220). Two parts are the model's
choices: with no choice listed the turn is the foreground's (assumption log 2), and taking a word and its first
micro-step are one step (assumption log 4). -/
def Obligations.StepRunsDecodedOperation : Prop :=
  ∀ s : State, s.fault = none → s.cfg.valid = true →
    (∀ w rest i, s.script = .event w :: rest → decodeEvent w = .ok i →
      step s = exec i { s with script := rest }) ∧
    (∀ rest i, foregroundTurn s rest → s.fgOp = some i → step s = exec i { s with script := rest }) ∧
    (∀ rest c port i, foregroundTurn s rest → s.fgOp = none → s.cmdPort = c :: port →
      decodeCommand c.word = .ok i →
      step s = exec i { s with script := rest, cmdPort := port, storageOk := c.storageOk })

/-- The word of any operation, offered as the next step, is what the next step runs; a command is taken with
the foreground idle. The offering is the model's own (assumption log 20), as is that taking a command and its first
micro-step are one step (log 4). -/
def Obligations.OfferedWordRunsNext : Prop :=
  ∀ (s : State) (i : Instr), s.fault = none → s.cfg.valid = true →
    step (s.withFetchWord 32 (encode i).toNat) =
      exec i (if i.isCommand then { s with fgOp := none } else s)

/-- R284: raising a model fault sets `FAULT` and changes nothing else; an operation that ends with `FAULT` set made no
other change; once it is set no agent takes a further step, and the state is no good final state. -/
def Obligations.FaultStopsEveryAgent : Prop :=
  (∀ (c : FaultCode) (s : State), s.fault = none → raiseFault c s = { s with fault := some c }) ∧
  (∀ (i : Instr) (s t : State) (c : FaultCode), exec i s = .next t → t.fault = some c →
    s.fault = none ∧ t = { s with fault := some c }) ∧
  (∀ (c : FaultCode) (s : State), s.fault = some c →
    step s = .fault (.stopped c) ∧ (∀ i : Instr, exec i s = .fault (.stopped c)) ∧
    (∀ d : FaultCode, raiseFault d s = s) ∧ goodFinal s = false)

/-- R116: a configuration for which no prescaler serves every enabled rate has no machine, and INITIALISE has no
timer setting for it. -/
def Obligations.NoMachineWithoutPrescaler : Prop :=
  ∀ s : State, s.fault = none → prescalerSel s.cfg = none →
    step s = .refused .noMachine ∧ ∀ i, timerSetting s.cfg i = none

/-- R84, R290: a command word that decodes to no command, or to one that is not legal for the build, raises
`F_ILLEGAL_COMMAND` when it is taken, before any micro-step. The model's choices in it: the word, the turn and the draw
are gone from the environment's lists (assumption log 7), an empty script gives the turn to the foreground (log 2), and
no word is taken while an EDGE_FIRE is due (log 13). -/
def Obligations.IllegalCommandWordFaults : Prop :=
  ∀ (s : State) (c : HostCommand) (port : List HostCommand) (rest : List Turn),
    s.fault = none → s.cfg.valid = true → s.edgeFireReady = false → foregroundTurn s rest →
    s.fgOp = none → s.cmdPort = c :: port →
    ((∃ e, decodeCommand c.word = .error e) ∨
      (∃ i, decodeCommand c.word = .ok i ∧ i.wellFormed s.cfg = false)) →
    step s = .next { s with
      script := rest, cmdPort := port, storageOk := c.storageOk, fault := some .illegalCommand }

/-- R221, R291: before the first successful INITIALISE the six commands that use the link raise
`F_NOT_INITIALISED` before any micro-step; NOP, READ_STATUS and INITIALISE never raise it. -/
def Obligations.LinkCommandsBeforeSetupFault : Prop :=
  ∀ s : State, s.fault = none → s.edgeFireReady = false → s.fgOp = none → s.notinit = true →
    (∀ i : Instr, (∃ b, i = .putChar b) ∨ i = .dataPending ∨ i = .getChar ∨ i = .enableReceive ∨
        i = .disableReceive ∨ i = .clearOverflow →
      exec i s = .next { s with fault := some .notInitialised }) ∧
    (∀ i t, i = .nop ∨ i = .readStatus ∨ (∃ idx, i = .initialise idx) →
      exec i s = .next t → t.fault ≠ some .notInitialised)

/-! Reset and the invariant. -/

/-- The reset values the spec gives (R321, R23, R37, R39 to R41, R47, R50, R51). -/
def Obligations.ResetValues : Prop :=
  ∀ cfg : Config,
    let r := State.resetOf cfg
    r.cfg = cfg ∧ r.status = 0x80 ∧ r.rxState = .idle ∧ r.txState = .idle ∧ r.rxovf = false ∧
    r.notinit = true ∧ r.txdOe = false ∧ r.edgeIe = false ∧ r.edgePend = false ∧ r.tmrRun = false ∧
    r.tickIe = false ∧ r.gie = false ∧ r.fault = none ∧ r.fgOp = none

/-- What reset leaves unspecified is never observed: two states with the specified reset values, whatever the
other fields, give after a successful INITIALISE states that differ at most in the FIFO storage and the locals `FG_T`,
`FG_V`, `FG_ACC` (R321, R224); `FG_STEP` is I1 in both, as the taking sets it (R220), the taking and I1 being one step
(assumption log 4). The fields named are those no rule reads before writing. -/
def Obligations.UnspecifiedResetValuesUnobserved : Prop :=
  ∀ (r q : State) (idx : BitVec 3),
    (∀ s, s = r ∨ s = q → Unstarted s ∧ s.fault = none ∧ s.edgePend = false ∧ s.results = [] ∧
      s.cmdPort = [] ∧ s.script = [] ∧ s.storageOk = true) →
    r.cfg = q.cfg → r.cfg.valid = true → r.cfg.rateEnabled idx = true →
    ∃ t u, exec (.initialise idx) r = .next t ∧ exec (.initialise idx) q = .next u ∧
      t = { u with
        rxf := { u.rxf with data := r.rxf.data }
        txf := { u.txf with data := r.txf.data }
        fgT := r.fgT, fgV := r.fgV, fgAcc := r.fgAcc } ∧
      t.fgStep = .i1 ∧ u.fgStep = .i1

/-- The invariant of a run holds at reset, for every valid build; TC is one. It reads no field whose reset value is
the model's choice but the FIFO storage's form (assumption logs 8 and 9). -/
def Obligations.ResetMeetsInvariant : Prop :=
  Config.tc.valid = true ∧ ∀ cfg : Config, cfg.valid = true → Inv (State.resetOf cfg)

/-- Every step keeps the invariant of a run (R54; reserved bits, legal states; the canonical form of the storage is
the model's, assumption log 9). -/
def Obligations.StepKeepsInvariant : Prop :=
  ∀ s t : State, Inv s → step s = .next t → Inv t

/-- From a state of the invariant no step finds a field outside its legal values (R54, R10, R61; the fault is
the model's, assumption log 10). -/
def Obligations.LegalValuesNeverLeft : Prop :=
  ∀ s : State, Inv s → step s ≠ .fault .illegalState

/-! The Bit-Clock Configuration. -/

/-- R123: the worked results under the test configuration's clock, width, prescalers and bounds, and the corner
cases. -/
def Obligations.BitClockWorkedResults : Prop :=
  let build (rs : List Nat) : Config := { Config.tc with ratesEnabled := rs }
  let table (rs : List Nat) := rs.map (timerSetting (build rs))
  table [2, 3, 4] = [some ⟨1, 103, 52⟩, some ⟨1, 51, 26⟩, some ⟨1, 25, 13⟩] ∧
  table [2] = [some ⟨1, 103, 52⟩] ∧
  table [6] = [some ⟨0, 68, 34⟩] ∧
  table [5] = [some ⟨0, 138, 69⟩] ∧
  table [0] = [some ⟨2, 51, 26⟩] ∧
  table [1, 2, 3, 4] = [some ⟨1, 207, 104⟩, some ⟨1, 103, 52⟩, some ⟨1, 51, 26⟩, some ⟨1, 25, 13⟩] ∧
  table [5, 6] = [some ⟨0, 138, 69⟩, some ⟨0, 68, 34⟩] ∧
  prescalerSel (build [0, 1, 2, 3, 4, 5, 6]) = none ∧
  reloadFor 16000000 8 2400 = 416 ∧ pairValid Config.tc 8 2400 = false ∧
  divisor 16000000 64 115200 = 1 ∧ reloadFor 16000000 64 115200 = 0 ∧
  rateError 16000000 64 115200 * 1000000 / (64 * 1 * 230400) = 85069 ∧
  pairValid Config.tc 64 115200 = false ∧
  reloadFor 16000000 8 57600 = 16 ∧
  rateError 16000000 8 57600 * 1000000 / (8 * 17 * 115200) = 21241 ∧
  pairValid Config.tc 8 57600 = false ∧
  divisor 16000000 1024 19200 = 0 ∧ pairValid Config.tc 1024 19200 = false

/-- R115: the prescaler chosen is the first that is valid for every enabled rate, and there is none only where
no prescaler is. -/
def Obligations.PrescalerIsSmallestValid : Prop :=
  ∀ cfg : Config,
    let serves (p : Nat) : Prop := ∀ i ∈ cfg.ratesEnabled, ∃ b, cfg.rates[i]? = some b ∧ pairValid cfg p b = true
    (∀ k, prescalerSel cfg = some k ↔
      (∃ p, cfg.prescalers[k]? = some p ∧ serves p) ∧
        ∀ j p, j < k → cfg.prescalers[j]? = some p → ¬ serves p) ∧
    (prescalerSel cfg = none ↔ ∀ p ∈ cfg.prescalers, ¬ serves p)

/-- R113, R114, R117 to R119: for an enabled rate the reload value is within the accepted bounds, the threshold
is the middle of the window unless the parameter table gives it, and the real tick rate
`F_CLK / (P * (RELOAD + 1))` is within `MAX_ERR_PPM` of twice the baud rate. -/
def Obligations.TickRateWithinBound : Prop :=
  ∀ (cfg : Config) (i : Nat) (ts : TimerSetting), timerSetting cfg i = some ts →
    ∃ p b, cfg.prescalers[ts.ps]? = some p ∧ cfg.rates[i]? = some b ∧ i ∈ cfg.ratesEnabled ∧
      prescalerSel cfg = some ts.ps ∧ tickCycles cfg i = some (p * (ts.reload + 1)) ∧
      cfg.reloadMin ≤ ts.reload ∧ ts.reload ≤ 2 ^ cfg.width.bits - 1 ∧
      (cfg.threshTable.lookup i = none → ts.thresh = (ts.reload + 1) / 2) ∧
      cfg.fClk * 1000000 ≤ (1000000 + cfg.maxErrPpm) * (p * (ts.reload + 1) * (2 * b)) ∧
      (p * (ts.reload + 1) * (2 * b)) * 1000000 ≤
        cfg.fClk * 1000000 + cfg.maxErrPpm * (p * (ts.reload + 1) * (2 * b))

/-! INITIALISE. -/

/-- R224: a successful INITIALISE answers 0 and has exactly the listed effects; `FG_STEP` is I1, as the taking sets it
(R220), and the FIFO storage, the locals and the environment's part stay. Taking the word and I1 are one step (assumption
log 4). -/
def Obligations.InitialiseSucceeds : Prop :=
  ∀ (s : State) (idx : BitVec 3), canTake (.initialise idx) s → s.cfg.valid = true →
    s.tmrRun = false → s.gie = false → s.storageOk = true →
    ∃ (ts : TimerSetting) (t : State), timerSetting s.cfg idx.toNat = some ts ∧
      exec (.initialise idx) s = .next t ∧ t.results = s.results ++ [0] ∧ t.fgOp = none ∧
      t.rxf = ⟨s.rxf.data, 0, false, false⟩ ∧ t.txf = ⟨s.txf.data, 0, false, false⟩ ∧
      t.txdOe = true ∧ t.txd = true ∧ t.edgeIe = true ∧ t.edgePend = false ∧
      t.rxShift = 0 ∧ t.rxBitcnt = 0 ∧ t.rxPhase = false ∧ t.rxCd = 0 ∧
      t.txShift = 0 ∧ t.txBitcnt = 0 ∧ t.txPhase = false ∧
      t.rateSel = idx ∧ t.tmrPs.toNat = ts.ps ∧ t.tmrTop.toNat = ts.reload ∧ t.thresh.toNat = ts.thresh ∧
      t.tmrRun = true ∧ t.tickIe = true ∧ t.status = 0x00 ∧ t.gie = true ∧
      t.cfg = s.cfg ∧ t.fault = none ∧ t.fgStep = .i1 ∧ t.fgT = s.fgT ∧ t.fgV = s.fgV ∧
      t.fgAcc = s.fgAcc ∧ t.cmdPort = s.cmdPort ∧ t.script = s.script ∧ t.storageOk = s.storageOk

/-- R223, R293, R306: with the timer running INITIALISE answers 1, whatever the storage; else, with interrupts
enabled, it raises `F_INIT_INTERRUPTIBLE`; else, without storage, it answers 2. Either way every other field keeps
its value, after result 2 a later INITIALISE may succeed, and in a run from reset the fault never arises. The model's
choices in it: after result 1 or 2 `FG_STEP` keeps its value, R223 read against the setting of R220 (assumption log 5),
and taking the word and I1 are one step, so the fault leaves the state before the taking (logs 4, 7). -/
def Obligations.InitialiseFailureChangesNothing : Prop :=
  ∀ (s : State) (idx : BitVec 3), canTake (.initialise idx) s →
    (s.tmrRun = true → exec (.initialise idx) s = .next { s with results := s.results ++ [1] }) ∧
    (s.tmrRun = false → s.gie = true →
      exec (.initialise idx) s = .next { s with fault := some .initInterruptible }) ∧
    (s.tmrRun = false → s.gie = false → s.storageOk = false →
      exec (.initialise idx) s = .next { s with results := s.results ++ [2] } ∧
      (s.cfg.valid = true → ∃ t,
        exec (.initialise idx) { s with results := s.results ++ [2], storageOk := true } = .next t ∧
        t.results = s.results ++ [2, 0] ∧ t.notinit = false)) ∧
    (Inv s → ∃ t, exec (.initialise idx) s = .next t ∧ t.fault = none)

/-! The other commands. -/

/-- R233: NOP reads and writes nothing and returns 0, initialised or not. The model's choices in it: `FG_STEP` keeps its
value, R233 read against R220, whose taking sets it to N1 (assumption log 5), and taking the word and N1 are one step
(log 4). -/
def Obligations.NopReturnsZero : Prop :=
  ∀ s : State, s.fault = none → s.edgeFireReady = false → s.fgOp = none →
    exec .nop s = .next { s with results := s.results ++ [0] }

/-- R225, R133, R134, R136: the six micro-steps of PUT_CHAR. Where the command is taken, the taking sets `FG_OP` and
`FG_STEP` (R220) and PC1 runs in the same step, which is the model's choice (assumption log 4). -/
def Obligations.PutCharMicroSteps : Prop :=
  ∀ (b : Byte) (s : State),
    (canTake (.putChar b) s ∨ inFlight (.putChar b) .pc1 s →
      exec (.putChar b) s = .next { s with
        fgOp := some (.putChar b), fgStep := if s.txf.lock then .pc1 else .pc2 }) ∧
    (inFlight (.putChar b) .pc2 s →
      (s.txf.lock = false → exec (.putChar b) s = .next { s with
        txf := { s.txf with lock := true }, fgStep := .pc3 }) ∧
      (s.txf.lock = true → exec (.putChar b) s = .next { s with fgStep := .pc1 })) ∧
    (inFlight (.putChar b) .pc3 s →
      (s.txf.top.toNat < s.cfg.capTx → exec (.putChar b) s = .next { s with
        fgT := s.txf.top, fgStep := .pc4 }) ∧
      (s.cfg.capTx ≤ s.txf.top.toNat → exec (.putChar b) s = .next { s with
        fgT := s.txf.top, fgAcc := false, fgStep := .pc6 })) ∧
    (inFlight (.putChar b) .pc4 s → s.fgT.toNat < s.cfg.capTx →
      exec (.putChar b) s = .next { s with
        txf := { s.txf with data := s.txf.data.write s.fgT.toNat b }, fgStep := .pc5 }) ∧
    (inFlight (.putChar b) .pc5 s → s.fgT.toNat < s.cfg.capTx →
      exec (.putChar b) s = .next { s with
        txf := { s.txf with top := s.fgT + 1 }, fgAcc := true, fgStep := .pc6 }) ∧
    (inFlight (.putChar b) .pc6 s →
      exec (.putChar b) s = .next { s with
        txf := { s.txf with lock := false }, fgOp := none,
        results := s.results ++ [if s.fgAcc then 1 else 0] })

/-- PUT_CHAR with no event inside it: with room the byte goes to slot `TOP`, the count rises by one and the
result is 1; on a full FIFO the result is 0 and `TXF` and `STATUS` are unchanged, nothing sticky set. The lock ends
free (R225, R136, R287). That the taking (R220) and PC1 are one step, so that six and four steps are enough, is the
model's choice (assumption log 4). -/
def Obligations.PutCharAcceptsOrRejects : Prop :=
  ∀ (b : Byte) (s : State), canTake (.putChar b) s → s.txf.lock = false →
    (s.txf.top.toNat < s.cfg.capTx →
      runMicroSteps (.putChar b) 6 s = .next { s with
        txf := ⟨s.txf.data.write s.txf.top.toNat b, s.txf.top + 1, false, s.txf.dirty⟩
        fgStep := .pc6, fgT := s.txf.top, fgAcc := true
        results := s.results ++ [1] }) ∧
    (s.cfg.capTx ≤ s.txf.top.toNat →
      runMicroSteps (.putChar b) 4 s = .next { s with
        fgStep := .pc6, fgT := s.txf.top, fgAcc := false
        results := s.results ++ [0] })

/-- A micro-step of PUT_CHAR stores to slot `FG_T` at PC4, the byte it was given, and to no other slot; the other
micro-steps store nothing (R61, R62, R225). -/
def Obligations.PutCharStoresOneSlot : Prop :=
  ∀ (b : Byte) (s t : State), s.txf.data.wf = true → exec (.putChar b) s = .next t →
    (s.fgOp = some (.putChar b) ∧ s.fgStep = .pc4 →
      t.txf.data.read s.fgT.toNat = b ∧
        ∀ a, a ≠ s.fgT.toNat → t.txf.data.read a = s.txf.data.read a) ∧
    (¬ (s.fgOp = some (.putChar b) ∧ s.fgStep = .pc4) →
      ∀ a, t.txf.data.read a = s.txf.data.read a) ∧
    ∀ a, t.rxf.data.read a = s.rxf.data.read a

/-- What no command but INITIALISE changes: the engines, the line, the timer, the enables but `EDGE_IE`, the
receive FIFO's bytes, count and lock; and which command alone may change `EDGE_IE`, `RXF.DIRTY`, `TXF`,
`STATUS.RXOVF` (R29, R68, R176, R201). -/
def Obligations.CommandsLeaveEnginesAlone : Prop :=
  ∀ (i : Instr) (s t : State), i.isCommand = true → (∀ idx, i ≠ .initialise idx) →
    exec i s = .next t →
    t.cfg = s.cfg ∧ t.rxState = s.rxState ∧ t.txState = s.txState ∧ t.notinit = s.notinit ∧
    t.status &&& 0x60 = s.status &&& 0x60 ∧
    t.rxShift = s.rxShift ∧ t.rxBitcnt = s.rxBitcnt ∧ t.rxPhase = s.rxPhase ∧ t.rxCd = s.rxCd ∧
    t.txShift = s.txShift ∧ t.txBitcnt = s.txBitcnt ∧ t.txPhase = s.txPhase ∧
    t.txd = s.txd ∧ t.txdOe = s.txdOe ∧ t.edgePend = s.edgePend ∧
    t.tmrRun = s.tmrRun ∧ t.tickIe = s.tickIe ∧ t.tmrPs = s.tmrPs ∧ t.tmrTop = s.tmrTop ∧
    t.thresh = s.thresh ∧ t.rateSel = s.rateSel ∧ t.gie = s.gie ∧
    t.cmdPort = s.cmdPort ∧ t.script = s.script ∧ t.storageOk = s.storageOk ∧
    t.rxf.data = s.rxf.data ∧ t.rxf.top = s.rxf.top ∧ t.rxf.lock = s.rxf.lock ∧
    t.txf.dirty = s.txf.dirty ∧
    (i ≠ .clearOverflow → t.status = s.status) ∧
    (i ≠ .enableReceive → i ≠ .disableReceive → t.edgeIe = s.edgeIe) ∧
    (i ≠ .getChar → t.rxf = s.rxf) ∧
    ((∀ b, i ≠ .putChar b) → t.txf = s.txf ∧ t.fgAcc = s.fgAcc)

/-- R227: the micro-steps of DATA_PENDING; where DP1 returns at once `FG_STEP` is DP1, as the taking sets it (R220), the
taking and DP1 being one step (assumption log 4). -/
def Obligations.DataPendingMicroSteps : Prop :=
  ∀ s : State,
    (canTake .dataPending s ∨ inFlight .dataPending .dp1 s →
      (s.rxf.top = 0 → exec .dataPending s = .next { s with
        fgT := 0, fgOp := none, fgStep := .dp1, results := s.results ++ [0] }) ∧
      (s.rxf.top ≠ 0 → exec .dataPending s = .next { s with
        fgT := s.rxf.top, fgOp := some .dataPending, fgStep := .dp2 })) ∧
    (inFlight .dataPending .dp2 s → exec .dataPending s = .next { s with
      fgStep := if s.rxf.dirty then .dp2 else .dp3 }) ∧
    (inFlight .dataPending .dp3 s → exec .dataPending s = .next { s with
      fgT := s.rxf.top, fgOp := none
      results := s.results ++ [BitVec.ofNat 32 s.rxf.top.toNat] })

/-- DATA_PENDING with no event inside it and no pop outstanding answers the receive count and changes nothing
else but its own bookkeeping (R227, R87). That the taking (R220) and DP1 are one step is the model's choice (assumption
log 4). -/
def Obligations.DataPendingAnswersCount : Prop :=
  ∀ s : State, canTake .dataPending s → s.rxf.dirty = false →
    ∃ l, runMicroSteps .dataPending 3 s = .next { s with
      fgT := s.rxf.top, fgStep := l
      results := s.results ++ [BitVec.ofNat 32 (contents s.rxf).length] }

/-- R228, R292: the micro-steps of GET_CHAR, with `F_GETCHAR_EMPTY` at GC2. Where the command is taken, the taking sets
`FG_OP` and `FG_STEP` (R220) and GC1 runs in the same step, which is the model's choice (assumption log 4). -/
def Obligations.GetCharMicroSteps : Prop :=
  ∀ s : State,
    (canTake .getChar s ∨ inFlight .getChar .gc1 s →
      exec .getChar s = .next { s with
        fgOp := some .getChar, fgStep := if s.rxf.dirty then .gc1 else .gc2 }) ∧
    (inFlight .getChar .gc2 s → 1 ≤ s.cfg.capRx →
      (s.rxf.top = 0 → exec .getChar s = .next { s with fault := some .getcharEmpty }) ∧
      (s.rxf.top ≠ 0 → exec .getChar s = .next { s with
        fgV := s.rxf.data.read 0, fgStep := .gc3 })) ∧
    (inFlight .getChar .gc3 s → exec .getChar s = .next { s with
      rxf := { s.rxf with dirty := true }, fgOp := none
      results := s.results ++ [BitVec.ofNat 32 s.fgV.toNat] })

/-- GET_CHAR with no event inside it and no pop outstanding answers the oldest byte, marks the front dirty, and
leaves the count (R228, R139, R142). That the taking (R220) and GC1 are one step is the model's choice (assumption
log 4). -/
def Obligations.GetCharAnswersOldest : Prop :=
  ∀ (s : State) (b : Byte) (rest : List Byte), canTake .getChar s → 1 ≤ s.cfg.capRx →
    s.rxf.dirty = false → contents s.rxf = b :: rest →
    runMicroSteps .getChar 3 s = .next { s with
      rxf := { s.rxf with dirty := true }
      fgStep := .gc3, fgV := b
      results := s.results ++ [BitVec.ofNat 32 b.toNat] }

/-- R324, R140: a GET_CHAR taken while a pop is outstanding holds at GC1 and changes nothing else; the next TICK
compacts, after which the same command goes on to the byte that was second (R228). That the first step both takes the
word, setting `FG_OP` and `FG_STEP` (R220), and runs GC1 is the model's choice (assumption log 4). -/
def Obligations.SecondGetCharWaitsForTick : Prop :=
  ∀ (s : State) (lvl : Bool) (b c : Byte) (rest : List Byte), Inv s → Started s →
    canTake .getChar s → s.rxf.dirty = true → contents s.rxf = b :: c :: rest →
    ∃ t u, exec .getChar s = .next t ∧ exec .getChar t = .next t ∧
      t = { s with fgOp := some .getChar, fgStep := .gc1 } ∧
      exec (.tick lvl) t = .next u ∧ u.rxf.dirty = false ∧
      (contents u.rxf).head? = some c ∧
      (u.edgeFireReady = false →
        ∃ v, runMicroSteps .getChar 3 u = .next v ∧ v.fgOp = none ∧
          v.results = s.results ++ [BitVec.ofNat 32 c.toNat])

/-- R229, R230: ENABLE_RECEIVE and DISABLE_RECEIVE write `EDGE_IE` and return 0; of the other fields only `FG_STEP`
changes, which the taking sets to their micro-step (R220), the taking and that micro-step being one step (assumption
log 4). -/
def Obligations.ReceiveEnableCommands : Prop :=
  ∀ s : State,
    (canTake .enableReceive s →
      exec .enableReceive s = .next { s with
        edgeIe := true, fgStep := .er1, results := s.results ++ [0] }) ∧
    (canTake .disableReceive s →
      exec .disableReceive s = .next { s with
        edgeIe := false, fgStep := .dr1, results := s.results ++ [0] })

/-- R231, R28, R23: READ_STATUS, initialised or not, answers the status word, its reserved bits 0, and changes nothing
but `FG_STEP`, which the taking sets to RS1 (R220). That the reserved bits are 0 in the word also in a state where they
are not 0 is the model's reading of R28 (assumption log 24), and that taking and RS1 are one step is log 4. -/
def Obligations.ReadStatusAnswersStatus : Prop :=
  ∀ s : State, s.fault = none → s.edgeFireReady = false → s.fgOp = none →
    ∃ w : Word, exec .readStatus s = .next { s with fgStep := .rs1, results := s.results ++ [w] } ∧
      w.extractLsb' 8 24 = 0 ∧ w.extractLsb' 5 2 = 0 ∧
      RxState.ofCode (w.extractLsb' 0 2) = s.rxState ∧ TxState.ofCode (w.extractLsb' 2 2) = s.txState ∧
      w.getLsbD 4 = s.rxovf ∧ w.getLsbD 7 = s.notinit

/-- R232: CLEAR_OVERFLOW clears bit 4 of the status word, leaves every other bit and `GIE`, and returns 0; of the other
fields only `FG_STEP` changes, which the taking sets to CO1 (R220), the taking and CO1 being one step (assumption
log 4). -/
def Obligations.ClearOverflowClearsOneBit : Prop :=
  ∀ s : State, canTake .clearOverflow s →
    ∃ st : BitVec 8,
      exec .clearOverflow s = .next { s with status := st, fgStep := .co1, results := s.results ++ [0] } ∧
      st.getLsbD 4 = false ∧ ∀ k, k ≠ 4 → st.getLsbD k = s.status.getLsbD k

/-- SEND counts completed PUT_CHARs only (R226, R91, R287). Where it answers a count from an idle block, whatever events
fall inside it, exactly that many results 1 were delivered, and one result 0 after them if a byte was left. With no event
inside it, it answers a count: the free slots or all the bytes, the bytes appended in order. The model's choices in it:
an empty script leaves every turn to the foreground (assumption log 2), taking a word and PC1 are one step, so that six
steps are enough (log 4), and each PUT_CHAR is given `fuel` steps (log 22). -/
def Obligations.SendCountsAcceptedBytes : Prop :=
  (∀ (s t : State) (bytes : List Byte) (fuel k : Nat), s.fgOp = none → s.cmdPort = [] →
    send fuel bytes s = (.next t, some k) →
    k ≤ bytes.length ∧ t.fgOp = none ∧ t.cmdPort = [] ∧
      t.results = s.results ++ List.replicate k 1 ++ (if k < bytes.length then [0] else [])) ∧
  (∀ (s : State) (bytes : List Byte) (fuel : Nat), 6 ≤ fuel →
    s.fault = none → s.cfg.valid = true → s.edgeFireReady = false → s.notinit = false →
    s.fgOp = none → s.cmdPort = [] → s.script = [] →
    s.txf.data.wf = true → s.txf.lock = false → s.txf.top.toNat ≤ s.cfg.capTx →
    let room := s.cfg.capTx - s.txf.top.toNat
    ∃ t, send fuel bytes s = (.next t, some (min bytes.length room)) ∧
      contents t.txf = contents s.txf ++ bytes.take room)

/-! Edges. -/

/-- R162 to R164: an EDGE that the enables deliver while the RX engine is `IDLE` disables further edges, sets the
countdown to 2 below the threshold and to 3 from it on, and arms the engine; nothing else changes. -/
def Obligations.EdgeArmsIdleEngine : Prop :=
  ∀ (s : State) (c : BitVec 16), s.fault = none → (Instr.edge c).wellFormed s.cfg = true →
    s.edgeIe = true → s.gie = true → c.toNat ≤ s.tmrTop.toNat → s.rxState = .idle →
    ∃ st : BitVec 8,
      exec (.edge c) s = .next { s with
        status := st, edgeIe := false, rxCd := if c.toNat < s.thresh.toNat then 2 else 3 } ∧
      rxsOf st = .armedCountdown ∧ ∀ k, 2 ≤ k → st.getLsbD k = s.status.getLsbD k

/-- R165, R166, R262: an EDGE delivered while the RX engine is not `IDLE` changes nothing; one that the enables do
not deliver is lost, or, with `EDGE_LATCH = latched`, sets `EDGE_PEND` and nothing else, its count not read. -/
def Obligations.EdgeIgnoredLostOrLatched : Prop :=
  ∀ (s : State) (c : BitVec 16), s.fault = none → (Instr.edge c).wellFormed s.cfg = true →
    (s.edgeIe = true → s.gie = true → c.toNat ≤ s.tmrTop.toNat → s.rxState ≠ .idle →
      exec (.edge c) s = .next s) ∧
    (s.edgeIe = false ∨ s.gie = false →
      (s.cfg.edgeLatch = .none → exec (.edge c) s = .next s) ∧
      (s.cfg.edgeLatch = .latched → exec (.edge c) s = .next { s with edgePend := true }))

/-- R263, R167: EDGE_FIRE clears `EDGE_PEND` and runs the edge handler: in `IDLE` it arms the engine as an EDGE
does, in another state it changes nothing more. -/
def Obligations.EdgeFireDeliversLatchedEdge : Prop :=
  ∀ (s : State) (c : BitVec 16), s.fault = none → (Instr.edgeFire c).wellFormed s.cfg = true →
    s.edgePend = true → s.edgeIe = true → s.gie = true → c.toNat ≤ s.tmrTop.toNat →
    (s.rxState = .idle → ∃ st : BitVec 8,
      exec (.edgeFire c) s = .next { s with
        status := st, edgePend := false, edgeIe := false
        rxCd := if c.toNat < s.thresh.toNat then 2 else 3 } ∧
      rxsOf st = .armedCountdown ∧ ∀ k, 2 ≤ k → st.getLsbD k = s.status.getLsbD k) ∧
    (s.rxState ≠ .idle → exec (.edgeFire c) s = .next { s with edgePend := false })

/-- R84, R261, R263, R264, R266: the events that cannot occur have no step: a word on the event port that is no
event of the build, a TICK with the timer stopped or masked, an EDGE_FIRE without a pending enabled edge or without
`EDGE_LATCH = latched`, a delivered count above `TMR_TOP`; and no command moves before a due EDGE_FIRE. The name of each
refusal is the model's (assumption log 12), and so is that a command is not even taken before a due EDGE_FIRE
(log 13). -/
def Obligations.ImpossibleEventsHaveNoStep : Prop :=
  ∀ s : State, s.fault = none →
    (∀ w rest, s.cfg.valid = true → s.script = .event w :: rest →
      ((∃ e, decodeEvent w = .error e) ∨
        (∃ i, decodeEvent w = .ok i ∧ i.wellFormed s.cfg = false)) →
      step s = .refused .notAnEvent) ∧
    (∀ lvl, s.tmrRun = false ∨ s.tickIe = false ∨ s.gie = false →
      exec (.tick lvl) s = .refused .tickCannotOccur) ∧
    (∀ c, s.cfg.edgeLatch = .none → exec (.edgeFire c) s = .refused .notAnEvent) ∧
    (∀ c, (Instr.edgeFire c).wellFormed s.cfg = true →
      s.edgePend = false ∨ s.edgeIe = false ∨ s.gie = false →
      exec (.edgeFire c) s = .refused .edgeFireCannotOccur) ∧
    (∀ c, (Instr.edgeFire c).wellFormed s.cfg = true → s.edgeFireReady = true →
      s.tmrTop.toNat < c.toNat → exec (.edgeFire c) s = .refused .countAboveTop) ∧
    (∀ c, (Instr.edge c).wellFormed s.cfg = true → s.edgeIe = true → s.gie = true →
      s.tmrTop.toNat < c.toNat → exec (.edge c) s = .refused .countAboveTop) ∧
    (∀ i : Instr, s.edgeFireReady = true → i.isCommand = true → exec i s = .refused .edgeFireFirst)

/-! The tick. -/

/-- R260, R266, R283: a TICK whose enables are on runs the RX step, the TX step and the two services, in that
order, with `GIE` as it was; and in a run, once the link is initialised, every TICK can be taken. -/
def Obligations.TickRunsHandler : Prop :=
  (∀ (s : State) (lvl : Bool), canTick s →
    exec (.tick lvl) s = .next (service .tx (service .rx (txStep (rxStep lvl s))))) ∧
  (∀ s : State, Inv s → s.notinit = false → s.fault = none → canTick s)

/-- What a TICK leaves: everything R260 does not list, and in the FIFOs every slot but the one appended to, where
no compaction of that FIFO happens. -/
def Obligations.TickFrame : Prop :=
  ∀ (s t : State) (lvl : Bool), s.rxf.data.wf = true → exec (.tick lvl) s = .next t →
    t.cfg = s.cfg ∧ t.txdOe = s.txdOe ∧ t.edgePend = s.edgePend ∧ t.tmrRun = s.tmrRun ∧
    t.tickIe = s.tickIe ∧ t.tmrPs = s.tmrPs ∧ t.tmrTop = s.tmrTop ∧ t.thresh = s.thresh ∧
    t.rateSel = s.rateSel ∧ t.gie = s.gie ∧ t.fault = s.fault ∧ t.fgOp = s.fgOp ∧
    t.fgStep = s.fgStep ∧ t.fgT = s.fgT ∧ t.fgV = s.fgV ∧ t.fgAcc = s.fgAcc ∧
    t.results = s.results ∧ t.cmdPort = s.cmdPort ∧ t.script = s.script ∧
    t.storageOk = s.storageOk ∧ t.notinit = s.notinit ∧
    t.status &&& 0x60 = s.status &&& 0x60 ∧ t.rxf.lock = s.rxf.lock ∧ t.txf.lock = s.txf.lock ∧
    (s.rxf.dirty = false ∨ s.rxf.lock = true →
      ∀ a, ¬ (received lvl s ≠ [] ∧ a = s.rxf.top.toNat) → t.rxf.data.read a = s.rxf.data.read a) ∧
    (txRemoves s = false → s.txf.dirty = false ∨ s.txf.lock = true →
      ∀ a, t.txf.data.read a = s.txf.data.read a)

/-- R169: in `IDLE` a TICK changes no field of the RX engine, at either level, and no operation but an edge makes the
engine leave `IDLE`. -/
def Obligations.RxIdleLeftOnlyByEdge : Prop :=
  ∀ s : State, s.rxState = .idle →
    (∀ lvl, canTick s →
      ∃ t, exec (.tick lvl) s = .next t ∧ t.rxState = .idle ∧ t.rxShift = s.rxShift ∧
        t.rxBitcnt = s.rxBitcnt ∧ t.rxPhase = s.rxPhase ∧ t.rxCd = s.rxCd ∧ t.edgeIe = s.edgeIe ∧
        t.rxovf = s.rxovf) ∧
    (∀ (i : Instr) (t : State), exec i s = .next t → t.rxState ≠ .idle →
      ∃ c, i = .edge c ∨ i = .edgeFire c)

/-- R170: in `ARMED_COUNTDOWN` a TICK counts down, or takes the first sample: with `test_then_decrement` on the
tick that finds the countdown at 0, with `decrement_then_test` on the tick that brings it to 0. The sample sets
the accumulator to the level, the count to 1 and the phase toggle to 0. -/
def Obligations.RxCountdownAndFirstSample : Prop :=
  ∀ (s : State) (lvl : Bool), canTick s → s.rxState = .armedCountdown →
    let samples := (s.cfg.rxCdMode = .testThenDecrement ∧ s.rxCd = 0) ∨
      (s.cfg.rxCdMode = .decrementThenTest ∧ s.rxCd = 1)
    ∃ t, exec (.tick lvl) s = .next t ∧ t.edgeIe = s.edgeIe ∧ t.rxovf = s.rxovf ∧
      (¬ samples → t.rxState = .armedCountdown ∧ t.rxCd.toNat + 1 = s.rxCd.toNat ∧
        t.rxShift = s.rxShift ∧ t.rxBitcnt = s.rxBitcnt ∧ t.rxPhase = s.rxPhase) ∧
      (samples → t.rxState = .receiving ∧ t.rxCd = 0 ∧ t.rxShift = (if lvl then 1 else 0) ∧
        t.rxBitcnt = 1 ∧ t.rxPhase = false)

/-- R171, R172: in `RECEIVING` a TICK toggles the phase; when the toggle becomes 1 nothing else happens, and when
it becomes 0 with fewer than 8 bits captured the level is ORed into the accumulator at the bit index. -/
def Obligations.RxPhaseGateAndDataBit : Prop :=
  ∀ (s : State) (lvl : Bool), canTick s → s.rxState = .receiving → frameEnds s = false →
    ∃ t, exec (.tick lvl) s = .next t ∧ t.rxState = .receiving ∧ t.rxPhase = !s.rxPhase ∧
      t.rxCd = s.rxCd ∧ t.edgeIe = s.edgeIe ∧ t.rxovf = s.rxovf ∧
      (s.rxPhase = false → t.rxShift = s.rxShift ∧ t.rxBitcnt = s.rxBitcnt) ∧
      (s.rxPhase = true →
        (∀ k, t.rxShift.getLsbD k = (s.rxShift.getLsbD k || (decide (k = s.rxBitcnt.toNat) && lvl))) ∧
        t.rxBitcnt.toNat = s.rxBitcnt.toNat + 1)

/-- R173 to R175, R288, R289, R335: the acting tick that finds 8 bits captured ends the frame whatever the level:
accumulator and count are cleared, the engine is `IDLE` and the edge interrupt enabled; a high level on a full
FIFO sets `RXOVF`, though the service frees a slot on the same TICK; nothing records a low level. -/
def Obligations.RxStopBitEndsFrame : Prop :=
  ∀ (s : State) (lvl : Bool), canTick s → frameEnds s = true →
    ∃ t, exec (.tick lvl) s = .next t ∧ t.rxState = .idle ∧ t.rxShift = 0 ∧ t.rxBitcnt = 0 ∧
      t.rxPhase = false ∧ t.rxCd = s.rxCd ∧ t.edgeIe = true ∧
      t.rxovf = (s.rxovf || (lvl && decide (s.cfg.capRx ≤ s.rxf.top.toNat)))

/-- What a TICK does to the bytes of `RXF`, in order: the received byte joins at the end, then the service
removes the front if a pop is outstanding (R135, R138, R142, R143, R173). -/
def Obligations.TickReceiveFifo : Prop :=
  ∀ (s : State) (lvl : Bool), canTick s → s.rxf.data.wf = true → s.cfg.capRx ≤ 255 →
    ∃ t, exec (.tick lvl) s = .next t ∧ t.rxf.lock = s.rxf.lock ∧
      t.rxf.dirty = (s.rxf.dirty && s.rxf.lock) ∧
      contents t.rxf =
        if s.rxf.dirty && !s.rxf.lock then (contents s.rxf ++ received lvl s).tail
        else contents s.rxf ++ received lvl s

/-- What a TICK does to the bytes of `TXF`: its front leaves when the TX engine's compaction finds the lock free
(R137, R142, R195, R196); in a run `TXF.DIRTY` is 0 and the service does nothing (R138). -/
def Obligations.TickTransmitFifo : Prop :=
  ∀ (s : State) (lvl : Bool), canTick s → s.txf.data.wf = true → s.txf.dirty = false →
    ∃ t, exec (.tick lvl) s = .next t ∧ t.txf.lock = s.txf.lock ∧ t.txf.dirty = false ∧
      contents t.txf = if txRemoves s then (contents s.txf).tail else contents s.txf

/-- R190 to R194: on a non-acting tick no TX field but `TX_PHASE` changes and `TXD` holds its level; on an acting
tick the TX engine starts a frame from the front of a non-empty `TXF`, then sends bit 0, then the bit `TX_BITCNT`
selects; `TXF` is unchanged. -/
def Obligations.TxGateStartAndDataBits : Prop :=
  ∀ (s : State) (lvl : Bool), canTick s → s.txf.dirty = false → txAttempts s = false →
    ∃ t, exec (.tick lvl) s = .next t ∧ t.txPhase = !s.txPhase ∧ t.txf = s.txf ∧
      (s.txPhase = false → t.txState = s.txState ∧ t.txShift = s.txShift ∧
        t.txBitcnt = s.txBitcnt ∧ t.txd = s.txd) ∧
      (s.txPhase = true → s.txState = .idle → s.txf.top = 0 →
        t.txState = .idle ∧ t.txd = s.txd ∧ t.txShift = s.txShift ∧ t.txBitcnt = s.txBitcnt) ∧
      (s.txPhase = true → s.txState = .idle → s.txf.top ≠ 0 →
        t.txState = .sentStartBit ∧ t.txd = false ∧ t.txShift = s.txf.data.read 0 ∧ t.txBitcnt = 0) ∧
      (s.txPhase = true → s.txState = .sentStartBit →
        t.txState = .sendingData ∧ t.txd = s.txShift.getLsbD 0 ∧ t.txShift = s.txShift ∧
        t.txBitcnt.toNat = s.txBitcnt.toNat + 1) ∧
      (s.txPhase = true → s.txState = .sendingData →
        t.txState = .sendingData ∧ t.txd = s.txShift.getLsbD s.txBitcnt.toNat ∧
        t.txShift = s.txShift ∧ t.txBitcnt.toNat = s.txBitcnt.toNat + 1)

/-- R195, R196, R200: after 8 bits the acting tick drives the stop bit and attempts the compaction: `IDLE` with
the lock free, `BUFFER_LOCKED` with it held; `BUFFER_LOCKED` retries and does not write the line; the bit count
stays. -/
def Obligations.TxStopBitAndRetry : Prop :=
  ∀ (s : State) (lvl : Bool), canTick s → s.txf.dirty = false → txAttempts s = true →
    ∃ t, exec (.tick lvl) s = .next t ∧ t.txPhase = false ∧ t.txShift = s.txShift ∧
      t.txBitcnt = s.txBitcnt ∧
      t.txd = (s.txd || decide (s.txState = .sendingData)) ∧
      (s.txf.lock = false → t.txState = .idle ∧ t.txf = compactFront s.txf) ∧
      (s.txf.lock = true → t.txState = .bufferLocked ∧ t.txf = s.txf)

/-! The FIFO primitives. -/

/-- R137: each slot below `TOP - 1` takes the byte above it, every other slot keeps its byte, the count falls by
one; an empty FIFO is unchanged. -/
def Obligations.CompactFrontShiftsDown : Prop :=
  ∀ f : Fifo, f.data.wf = true →
    (f.top = 0 → compactFront f = f) ∧
    (f.top ≠ 0 →
      (compactFront f).top.toNat = f.top.toNat - 1 ∧ (compactFront f).lock = f.lock ∧
      (compactFront f).dirty = f.dirty ∧
      (∀ a, a < f.top.toNat - 1 → (compactFront f).data.read a = f.data.read (a + 1)) ∧
      (∀ a, f.top.toNat - 1 ≤ a → (compactFront f).data.read a = f.data.read a))

/-- R142, R135: "bytes leave a FIFO in the order they entered it": append puts a byte at the end, FULL exactly at
capacity, and compaction takes the first. -/
def Obligations.FifoKeepsArrivalOrder : Prop :=
  ∀ (f : Fifo) (cap : Nat) (b : Byte), f.data.wf = true → cap ≤ 255 →
    (fifoAppend cap f b = none ↔ cap ≤ f.top.toNat) ∧
    (∀ g, fifoAppend cap f b = some g → contents g = contents f ++ [b] ∧
      g.lock = f.lock ∧ g.dirty = f.dirty) ∧
    contents (compactFront f) = (contents f).tail

/-! Rules about the whole machine. -/

/-- R27, R323: `NOTINIT` is never set again, and only INITIALISE clears it. -/
def Obligations.NotInitClearedOnceByInitialise : Prop :=
  ∀ (i : Instr) (s t : State), exec i s = .next t →
    (s.notinit = false → t.notinit = false) ∧
    (s.notinit = true → t.notinit = false → ∃ idx, i = .initialise idx)

/-- R26: only a TICK that ends a valid frame on a full `RXF` sets `RXOVF`; only CLEAR_OVERFLOW and INITIALISE
clear it. -/
def Obligations.OverflowFlagWriters : Prop :=
  ∀ (i : Instr) (s t : State), exec i s = .next t →
    (s.rxovf = false → t.rxovf = true →
      i = .tick true ∧ frameEnds s = true ∧ s.cfg.capRx ≤ s.rxf.top.toNat) ∧
    (s.rxovf = true → t.rxovf = false → i = .clearOverflow ∨ ∃ idx, i = .initialise idx)

/-- R120, R323, R41: once the timer runs, no operation stops it or changes what it was programmed with; the build
never changes. -/
def Obligations.TimerFixedOnceRunning : Prop :=
  ∀ (i : Instr) (s t : State), exec i s = .next t →
    t.cfg = s.cfg ∧
    (s.tmrRun = true → t.tmrRun = true ∧ t.tickIe = s.tickIe ∧ t.tmrPs = s.tmrPs ∧
      t.tmrTop = s.tmrTop ∧ t.thresh = s.thresh ∧ t.rateSel = s.rateSel ∧ t.gie = s.gie)

/-- R197: `TXD` changes only on an acting tick outside `BUFFER_LOCKED`, and at INITIALISE. -/
def Obligations.LineChangesOnlyOnActingTicks : Prop :=
  ∀ (i : Instr) (s t : State), exec i s = .next t → t.txd ≠ s.txd →
    (∃ idx, i = .initialise idx) ∨
    (∃ lvl, i = .tick lvl ∧ s.txPhase = true ∧ s.txState ≠ .bufferLocked)

/-- R69: while a FIFO holds a byte, no pop is outstanding and the TX engine is not compacting, no operation
changes its slot 0. -/
def Obligations.FrontByteStable : Prop :=
  ∀ (i : Instr) (s t : State), Inv s → exec i s = .next t →
    (1 ≤ s.rxf.top.toNat → s.rxf.dirty = false → t.rxf.data.read 0 = s.rxf.data.read 0) ∧
    (1 ≤ s.txf.top.toNat → s.txf.dirty = false → txRemoves s = false ∨ i.isCommand = true →
      t.txf.data.read 0 = s.txf.data.read 0)

/-- R54(j): the edge interrupt stays disabled from the edge to the end of its frame, unless ENABLE_RECEIVE runs. -/
def Obligations.EdgesDisabledDuringFrame : Prop :=
  ∀ (i : Instr) (s t : State), exec i s = .next t → i ≠ .enableReceive →
    (s.rxState ≠ .idle → s.edgeIe = false) → t.rxState ≠ .idle → t.edgeIe = false

/-- R141, R234: the foreground never finds `TXF.LOCK` held when it comes to take it, no handler leaves a lock held,
and a TICK lifts the holds at DP2 and GC1. -/
def Obligations.HoldsAreLifted : Prop :=
  ∀ s : State, Inv s →
    (∀ b, (s.notinit = false ∧ s.fgOp = none) ∨ inFlight (.putChar b) .pc1 s ∨
      inFlight (.putChar b) .pc2 s → s.txf.lock = false) ∧
    (s.notinit = false → s.rxf.lock = false) ∧
    (∀ lvl t, exec (.tick lvl) s = .next t → t.rxf.dirty = false ∧ t.rxf.lock = false ∧
      t.txf.lock = s.txf.lock)

/-- R282: with the RX engine `IDLE`, an EDGE taken before a simultaneous TICK leaves the countdown one lower than
when the TICK is taken first. -/
def Obligations.SimultaneousEdgeAndTickOrder : Prop :=
  ∀ (s : State) (c : BitVec 16) (lvl : Bool), canTick s → (Instr.edge c).wellFormed s.cfg = true →
    s.edgeIe = true → c.toNat ≤ s.tmrTop.toNat → s.rxState = .idle →
    ∃ t u, runEvents [.edge c, .tick lvl] s = .next t ∧ runEvents [.tick lvl, .edge c] s = .next u ∧
      t.rxState = .armedCountdown ∧ u.rxState = .armedCountdown ∧
      u.rxCd = (if c.toNat < s.thresh.toNat then 2 else 3) ∧ t.rxCd.toNat + 1 = u.rxCd.toNat

/-- A whole received frame (R92, R163 to R175, R177): from an idle engine with edges enabled and no pop
outstanding, the events of `RXFRAME` at any admitted count, byte and stop level, in either countdown mode,
append exactly that byte if the stop bit is high and there is room, set `RXOVF` if it is high and there is none,
and leave the engine idle with edges enabled. -/
def Obligations.FrameReceived : Prop :=
  ∀ (s : State) (c : BitVec 16) (b : Byte) (stop : Bool), Inv s → Started s → s.fault = none →
    (Instr.edge c).wellFormed s.cfg = true → c.toNat ≤ s.tmrTop.toNat →
    s.rxState = .idle → s.edgeIe = true → s.rxf.dirty = false →
    ∃ t, runEvents (rxFrame s c b stop) s = .next t ∧ t.rxState = .idle ∧ t.edgeIe = true ∧
      contents t.rxf =
        contents s.rxf ++ (if stop && decide (s.rxf.top.toNat < s.cfg.capRx) then [b] else []) ∧
      t.rxovf = (s.rxovf || (stop && decide (s.rxf.top.toNat = s.cfg.capRx)))

/-- A whole transmitted frame (R190 to R195, R198, R199): from an idle engine whose next tick is an acting tick,
with a byte at the front of `TXF` and its lock free, the line after tick `2 * k + 1` is bit period `k` of the
frame, and after the tenth the byte has left the FIFO and the engine is idle; the RX levels do not matter. -/
def Obligations.FrameTransmitted : Prop :=
  ∀ (s : State) (b : Byte) (rest : List Byte), Inv s → Started s → s.fault = none →
    s.txState = .idle → s.txPhase = true → s.txf.lock = false → contents s.txf = b :: rest →
    ∀ (k : Nat) (levels : List Bool), k ≤ 9 → levels.length = 2 * k + 1 →
      ∃ t, runEvents (levels.map .tick) s = .next t ∧ t.txd = frameBit b k ∧
        (k < 9 → contents t.txf = b :: rest ∧ t.txState ≠ .idle) ∧
        (k = 9 → contents t.txf = rest ∧ t.txState = .idle)
end

