-- ==== Sys2Proof/Laws/Memory.lean ====
section
/-! SUPPORT. FIFO storage: a read after a write, the canonical form, and that equal contents are equal data. -/

namespace Sys2Proof.Laws

open Sys2Proof.Machine

/-- Below its lowest slot a canonical storage reads as unlisted. -/
theorem read_of_lt (m : Memory) : ∀ {n i : Nat}, Memory.wfFrom n m = true → i < n →
    Memory.read m i = Memory.unlisted := by
  induction m with
  | nil => intros; rfl
  | cons c rest ih =>
    obtain ⟨a, b⟩ := c
    intro n i h hi
    simp only [Memory.wfFrom, Bool.and_eq_true, decide_eq_true_eq] at h
    have : i ≠ a := by omega
    simp only [Memory.read, this, if_false]
    exact ih h.2 (by omega)

/-- A read of the slot just written gives the byte written. -/
theorem read_write_same (m : Memory) (i : Nat) (v : Byte) : ∀ {n : Nat}, Memory.wfFrom n m = true →
    Memory.read (Memory.write m i v) i = v := by
  induction m with
  | nil =>
    intro n _
    simp only [Memory.write]
    split <;> simp_all [Memory.read]
  | cons c rest ih =>
    obtain ⟨a, b⟩ := c
    intro n h
    have h' := h
    simp only [Memory.wfFrom, Bool.and_eq_true, decide_eq_true_eq] at h
    simp only [Memory.write]
    split
    · rename_i hlt
      split
      · rename_i hv
        subst hv
        have : i ≠ a := by omega
        simp only [Memory.read, this, if_false]
        exact read_of_lt rest h.2 (by omega)
      · simp [Memory.read]
    · split
      · rename_i hia
        split
        · rename_i hv
          subst hv
          exact read_of_lt rest h.2 (by omega)
        · simp [Memory.read]
      · rename_i hne
        simp only [Memory.read, hne, if_false]
        exact ih h.2

/-- A write leaves every other slot alone. -/
theorem read_write_other (m : Memory) (i j : Nat) (v : Byte) (hij : j ≠ i) : ∀ {n : Nat},
    Memory.wfFrom n m = true → Memory.read (Memory.write m i v) j = Memory.read m j := by
  induction m with
  | nil =>
    intro n _
    simp only [Memory.write]
    split <;> simp [Memory.read, hij]
  | cons c rest ih =>
    obtain ⟨a, b⟩ := c
    intro n h
    simp only [Memory.wfFrom, Bool.and_eq_true, decide_eq_true_eq] at h
    simp only [Memory.write]
    split
    · split <;> simp [Memory.read, hij]
    · split
      · rename_i hia
        have hja : j ≠ a := by omega
        split <;> simp [Memory.read, hij, hja]
      · simp only [Memory.read]
        split
        · rfl
        · exact ih h.2

/-- A write at or above the bound keeps the canonical form above the bound. -/
theorem write_wfFrom (m : Memory) (i : Nat) (v : Byte) : ∀ {n : Nat}, n ≤ i →
    Memory.wfFrom n m = true → Memory.wfFrom n (Memory.write m i v) = true := by
  induction m with
  | nil =>
    intro n hn _
    simp only [Memory.write]
    split <;> simp_all [Memory.wfFrom]
  | cons c rest ih =>
    obtain ⟨a, b⟩ := c
    intro n hn h
    simp only [Memory.wfFrom, Bool.and_eq_true, decide_eq_true_eq] at h
    obtain ⟨⟨ha, hb⟩, hr⟩ := h
    have lower : ∀ {m' : Memory} {p q : Nat}, p ≤ q → Memory.wfFrom q m' = true →
        Memory.wfFrom p m' = true := by
      intro m' p q hpq hq
      cases m' with
      | nil => rfl
      | cons d _ =>
        obtain ⟨x, y⟩ := d
        simp only [Memory.wfFrom, Bool.and_eq_true, decide_eq_true_eq] at hq ⊢
        exact ⟨⟨by omega, hq.1.2⟩, hq.2⟩
    simp only [Memory.write]
    split
    · rename_i hlt
      split
      · simp only [Memory.wfFrom, Bool.and_eq_true, decide_eq_true_eq]
        exact ⟨⟨ha, hb⟩, hr⟩
      · rename_i hv
        simp only [Memory.wfFrom, Bool.and_eq_true, decide_eq_true_eq]
        exact ⟨⟨hn, hv⟩, ⟨by omega, hb⟩, hr⟩
    · split
      · rename_i hia
        split
        · exact lower (by omega) hr
        · rename_i hv
          simp only [Memory.wfFrom, Bool.and_eq_true, decide_eq_true_eq]
          exact ⟨⟨hn, hv⟩, by rw [hia]; exact hr⟩
      · simp only [Memory.wfFrom, Bool.and_eq_true, decide_eq_true_eq]
        exact ⟨⟨ha, hb⟩, ih (by omega) hr⟩

/-- Every write keeps the canonical form. -/
theorem write_wf (m : Memory) (i : Nat) (v : Byte) (h : Memory.wf m = true) :
    Memory.wf (Memory.write m i v) = true :=
  write_wfFrom m i v (Nat.zero_le i) h

/-- The compaction loop keeps the canonical form. -/
theorem shiftDown_wf (m : Memory) (n : Nat) (h : Memory.wf m = true) :
    Memory.wf (shiftDown m n) = true := by
  induction n with
  | zero => exact h
  | succ n ih => exact write_wf _ _ _ ih

theorem compactFront_wf (f : Fifo) (h : Memory.wf f.data = true) :
    Memory.wf (compactFront f).data = true := by
  unfold compactFront
  split
  · exact h
  · exact shiftDown_wf _ _ h

theorem fifoWrite_wf (f : Fifo) (i : Nat) (v : Byte) (h : Memory.wf f.data = true) :
    Memory.wf (fifoWrite f i v).data = true :=
  write_wf _ _ _ h

theorem fifoAppend_wf {cap : Nat} {f g : Fifo} {b : Byte} (e : fifoAppend cap f b = some g)
    (h : Memory.wf f.data = true) : Memory.wf g.data = true := by
  unfold fifoAppend at e
  split at e
  · cases e; exact fifoWrite_wf _ _ _ h
  · cases e

theorem serviceFifo_wf (f : Fifo) (h : Memory.wf f.data = true) :
    Memory.wf (serviceFifo f).data = true := by
  unfold serviceFifo tryLock
  split
  · split
    · rename_i g hg
      split at hg
      · cases hg
      · cases hg; exact compactFront_wf _ h
    · exact h
  · exact h

/-- The storages of a reset state are canonical. -/
theorem resetOf_wf (cfg : Config) : Memory.wf (State.resetOf cfg).rxf.data = true ∧
    Memory.wf (State.resetOf cfg).txf.data = true := ⟨rfl, rfl⟩

/-- Canonical storages that read the same at every slot are equal data. -/
theorem eq_of_read_eq : ∀ (m m' : Memory) {n : Nat}, Memory.wfFrom n m = true →
    Memory.wfFrom n m' = true → (∀ i, Memory.read m i = Memory.read m' i) → m = m'
  | [], [], _, _, _, _ => rfl
  | [], (a, b) :: rest, n, _, h', e => by
    simp only [Memory.wfFrom, Bool.and_eq_true, decide_eq_true_eq] at h'
    have := e a
    simp only [Memory.read, if_true] at this
    exact absurd this.symm h'.1.2
  | (a, b) :: rest, [], n, h, _, e => by
    simp only [Memory.wfFrom, Bool.and_eq_true, decide_eq_true_eq] at h
    have := e a
    simp only [Memory.read, if_true] at this
    exact absurd this h.1.2
  | (a, b) :: rest, (a', b') :: rest', n, h, h', e => by
    simp only [Memory.wfFrom, Bool.and_eq_true, decide_eq_true_eq] at h h'
    have low : ∀ {r : Memory} {k i : Nat}, Memory.wfFrom k r = true → i < k →
        Memory.read r i = Memory.unlisted := fun hr hi => read_of_lt _ hr hi
    have haa : a = a' := by
      rcases Nat.lt_trichotomy a a' with hlt | heq | hgt
      · have := e a
        have hne : a ≠ a' := by omega
        simp only [Memory.read, if_true, hne, if_false] at this
        rw [low h'.2 (by omega)] at this
        exact absurd this h.1.2
      · exact heq
      · have := e a'
        have hne : a' ≠ a := by omega
        simp only [Memory.read, if_true, hne, if_false] at this
        rw [low h.2 (by omega)] at this
        exact absurd this.symm h'.1.2
    subst haa
    have hbb : b = b' := by simpa [Memory.read] using e a
    subst hbb
    have hr : rest = rest' := by
      refine eq_of_read_eq rest rest' h.2 h'.2 (fun i => ?_)
      by_cases hi : i = a
      · subst hi
        rw [low h.2 (by omega), low h'.2 (by omega)]
      · simpa [Memory.read, hi] using e i
    rw [hr]

end Sys2Proof.Laws
end

