-- ==== Sys2Proof/Laws/State.lean ====
section
/-! SUPPORT. One lemma per field per named update of State, each true by rfl. -/

namespace Sys2Proof.Laws

open Sys2Proof.Machine

@[simp] theorem setRxState_cfg (s : State) (x : RxState) : (s.setRxState x).cfg = s.cfg := rfl
@[simp] theorem setRxState_status (s : State) (x : RxState) : (s.setRxState x).status = setRxs s.status x := rfl
@[simp] theorem setRxState_rxShift (s : State) (x : RxState) : (s.setRxState x).rxShift = s.rxShift := rfl
@[simp] theorem setRxState_rxBitcnt (s : State) (x : RxState) : (s.setRxState x).rxBitcnt = s.rxBitcnt := rfl
@[simp] theorem setRxState_rxPhase (s : State) (x : RxState) : (s.setRxState x).rxPhase = s.rxPhase := rfl
@[simp] theorem setRxState_rxCd (s : State) (x : RxState) : (s.setRxState x).rxCd = s.rxCd := rfl
@[simp] theorem setRxState_txShift (s : State) (x : RxState) : (s.setRxState x).txShift = s.txShift := rfl
@[simp] theorem setRxState_txBitcnt (s : State) (x : RxState) : (s.setRxState x).txBitcnt = s.txBitcnt := rfl
@[simp] theorem setRxState_txPhase (s : State) (x : RxState) : (s.setRxState x).txPhase = s.txPhase := rfl
@[simp] theorem setRxState_txd (s : State) (x : RxState) : (s.setRxState x).txd = s.txd := rfl
@[simp] theorem setRxState_txdOe (s : State) (x : RxState) : (s.setRxState x).txdOe = s.txdOe := rfl
@[simp] theorem setRxState_edgeIe (s : State) (x : RxState) : (s.setRxState x).edgeIe = s.edgeIe := rfl
@[simp] theorem setRxState_edgePend (s : State) (x : RxState) : (s.setRxState x).edgePend = s.edgePend := rfl
@[simp] theorem setRxState_tmrRun (s : State) (x : RxState) : (s.setRxState x).tmrRun = s.tmrRun := rfl
@[simp] theorem setRxState_tickIe (s : State) (x : RxState) : (s.setRxState x).tickIe = s.tickIe := rfl
@[simp] theorem setRxState_tmrPs (s : State) (x : RxState) : (s.setRxState x).tmrPs = s.tmrPs := rfl
@[simp] theorem setRxState_tmrTop (s : State) (x : RxState) : (s.setRxState x).tmrTop = s.tmrTop := rfl
@[simp] theorem setRxState_thresh (s : State) (x : RxState) : (s.setRxState x).thresh = s.thresh := rfl
@[simp] theorem setRxState_rateSel (s : State) (x : RxState) : (s.setRxState x).rateSel = s.rateSel := rfl
@[simp] theorem setRxState_gie (s : State) (x : RxState) : (s.setRxState x).gie = s.gie := rfl
@[simp] theorem setRxState_rxf (s : State) (x : RxState) : (s.setRxState x).rxf = s.rxf := rfl
@[simp] theorem setRxState_txf (s : State) (x : RxState) : (s.setRxState x).txf = s.txf := rfl
@[simp] theorem setRxState_fault (s : State) (x : RxState) : (s.setRxState x).fault = s.fault := rfl
@[simp] theorem setRxState_fgOp (s : State) (x : RxState) : (s.setRxState x).fgOp = s.fgOp := rfl
@[simp] theorem setRxState_fgStep (s : State) (x : RxState) : (s.setRxState x).fgStep = s.fgStep := rfl
@[simp] theorem setRxState_fgT (s : State) (x : RxState) : (s.setRxState x).fgT = s.fgT := rfl
@[simp] theorem setRxState_fgV (s : State) (x : RxState) : (s.setRxState x).fgV = s.fgV := rfl
@[simp] theorem setRxState_fgAcc (s : State) (x : RxState) : (s.setRxState x).fgAcc = s.fgAcc := rfl
@[simp] theorem setRxState_results (s : State) (x : RxState) : (s.setRxState x).results = s.results := rfl
@[simp] theorem setRxState_cmdPort (s : State) (x : RxState) : (s.setRxState x).cmdPort = s.cmdPort := rfl
@[simp] theorem setRxState_script (s : State) (x : RxState) : (s.setRxState x).script = s.script := rfl
@[simp] theorem setRxState_storageOk (s : State) (x : RxState) : (s.setRxState x).storageOk = s.storageOk := rfl

@[simp] theorem setTxState_cfg (s : State) (x : TxState) : (s.setTxState x).cfg = s.cfg := rfl
@[simp] theorem setTxState_status (s : State) (x : TxState) : (s.setTxState x).status = setTxs s.status x := rfl
@[simp] theorem setTxState_rxShift (s : State) (x : TxState) : (s.setTxState x).rxShift = s.rxShift := rfl
@[simp] theorem setTxState_rxBitcnt (s : State) (x : TxState) : (s.setTxState x).rxBitcnt = s.rxBitcnt := rfl
@[simp] theorem setTxState_rxPhase (s : State) (x : TxState) : (s.setTxState x).rxPhase = s.rxPhase := rfl
@[simp] theorem setTxState_rxCd (s : State) (x : TxState) : (s.setTxState x).rxCd = s.rxCd := rfl
@[simp] theorem setTxState_txShift (s : State) (x : TxState) : (s.setTxState x).txShift = s.txShift := rfl
@[simp] theorem setTxState_txBitcnt (s : State) (x : TxState) : (s.setTxState x).txBitcnt = s.txBitcnt := rfl
@[simp] theorem setTxState_txPhase (s : State) (x : TxState) : (s.setTxState x).txPhase = s.txPhase := rfl
@[simp] theorem setTxState_txd (s : State) (x : TxState) : (s.setTxState x).txd = s.txd := rfl
@[simp] theorem setTxState_txdOe (s : State) (x : TxState) : (s.setTxState x).txdOe = s.txdOe := rfl
@[simp] theorem setTxState_edgeIe (s : State) (x : TxState) : (s.setTxState x).edgeIe = s.edgeIe := rfl
@[simp] theorem setTxState_edgePend (s : State) (x : TxState) : (s.setTxState x).edgePend = s.edgePend := rfl
@[simp] theorem setTxState_tmrRun (s : State) (x : TxState) : (s.setTxState x).tmrRun = s.tmrRun := rfl
@[simp] theorem setTxState_tickIe (s : State) (x : TxState) : (s.setTxState x).tickIe = s.tickIe := rfl
@[simp] theorem setTxState_tmrPs (s : State) (x : TxState) : (s.setTxState x).tmrPs = s.tmrPs := rfl
@[simp] theorem setTxState_tmrTop (s : State) (x : TxState) : (s.setTxState x).tmrTop = s.tmrTop := rfl
@[simp] theorem setTxState_thresh (s : State) (x : TxState) : (s.setTxState x).thresh = s.thresh := rfl
@[simp] theorem setTxState_rateSel (s : State) (x : TxState) : (s.setTxState x).rateSel = s.rateSel := rfl
@[simp] theorem setTxState_gie (s : State) (x : TxState) : (s.setTxState x).gie = s.gie := rfl
@[simp] theorem setTxState_rxf (s : State) (x : TxState) : (s.setTxState x).rxf = s.rxf := rfl
@[simp] theorem setTxState_txf (s : State) (x : TxState) : (s.setTxState x).txf = s.txf := rfl
@[simp] theorem setTxState_fault (s : State) (x : TxState) : (s.setTxState x).fault = s.fault := rfl
@[simp] theorem setTxState_fgOp (s : State) (x : TxState) : (s.setTxState x).fgOp = s.fgOp := rfl
@[simp] theorem setTxState_fgStep (s : State) (x : TxState) : (s.setTxState x).fgStep = s.fgStep := rfl
@[simp] theorem setTxState_fgT (s : State) (x : TxState) : (s.setTxState x).fgT = s.fgT := rfl
@[simp] theorem setTxState_fgV (s : State) (x : TxState) : (s.setTxState x).fgV = s.fgV := rfl
@[simp] theorem setTxState_fgAcc (s : State) (x : TxState) : (s.setTxState x).fgAcc = s.fgAcc := rfl
@[simp] theorem setTxState_results (s : State) (x : TxState) : (s.setTxState x).results = s.results := rfl
@[simp] theorem setTxState_cmdPort (s : State) (x : TxState) : (s.setTxState x).cmdPort = s.cmdPort := rfl
@[simp] theorem setTxState_script (s : State) (x : TxState) : (s.setTxState x).script = s.script := rfl
@[simp] theorem setTxState_storageOk (s : State) (x : TxState) : (s.setTxState x).storageOk = s.storageOk := rfl

@[simp] theorem setOverflow_cfg (s : State) : (s.setOverflow).cfg = s.cfg := rfl
@[simp] theorem setOverflow_status (s : State) : (s.setOverflow).status = setRxovf s.status := rfl
@[simp] theorem setOverflow_rxShift (s : State) : (s.setOverflow).rxShift = s.rxShift := rfl
@[simp] theorem setOverflow_rxBitcnt (s : State) : (s.setOverflow).rxBitcnt = s.rxBitcnt := rfl
@[simp] theorem setOverflow_rxPhase (s : State) : (s.setOverflow).rxPhase = s.rxPhase := rfl
@[simp] theorem setOverflow_rxCd (s : State) : (s.setOverflow).rxCd = s.rxCd := rfl
@[simp] theorem setOverflow_txShift (s : State) : (s.setOverflow).txShift = s.txShift := rfl
@[simp] theorem setOverflow_txBitcnt (s : State) : (s.setOverflow).txBitcnt = s.txBitcnt := rfl
@[simp] theorem setOverflow_txPhase (s : State) : (s.setOverflow).txPhase = s.txPhase := rfl
@[simp] theorem setOverflow_txd (s : State) : (s.setOverflow).txd = s.txd := rfl
@[simp] theorem setOverflow_txdOe (s : State) : (s.setOverflow).txdOe = s.txdOe := rfl
@[simp] theorem setOverflow_edgeIe (s : State) : (s.setOverflow).edgeIe = s.edgeIe := rfl
@[simp] theorem setOverflow_edgePend (s : State) : (s.setOverflow).edgePend = s.edgePend := rfl
@[simp] theorem setOverflow_tmrRun (s : State) : (s.setOverflow).tmrRun = s.tmrRun := rfl
@[simp] theorem setOverflow_tickIe (s : State) : (s.setOverflow).tickIe = s.tickIe := rfl
@[simp] theorem setOverflow_tmrPs (s : State) : (s.setOverflow).tmrPs = s.tmrPs := rfl
@[simp] theorem setOverflow_tmrTop (s : State) : (s.setOverflow).tmrTop = s.tmrTop := rfl
@[simp] theorem setOverflow_thresh (s : State) : (s.setOverflow).thresh = s.thresh := rfl
@[simp] theorem setOverflow_rateSel (s : State) : (s.setOverflow).rateSel = s.rateSel := rfl
@[simp] theorem setOverflow_gie (s : State) : (s.setOverflow).gie = s.gie := rfl
@[simp] theorem setOverflow_rxf (s : State) : (s.setOverflow).rxf = s.rxf := rfl
@[simp] theorem setOverflow_txf (s : State) : (s.setOverflow).txf = s.txf := rfl
@[simp] theorem setOverflow_fault (s : State) : (s.setOverflow).fault = s.fault := rfl
@[simp] theorem setOverflow_fgOp (s : State) : (s.setOverflow).fgOp = s.fgOp := rfl
@[simp] theorem setOverflow_fgStep (s : State) : (s.setOverflow).fgStep = s.fgStep := rfl
@[simp] theorem setOverflow_fgT (s : State) : (s.setOverflow).fgT = s.fgT := rfl
@[simp] theorem setOverflow_fgV (s : State) : (s.setOverflow).fgV = s.fgV := rfl
@[simp] theorem setOverflow_fgAcc (s : State) : (s.setOverflow).fgAcc = s.fgAcc := rfl
@[simp] theorem setOverflow_results (s : State) : (s.setOverflow).results = s.results := rfl
@[simp] theorem setOverflow_cmdPort (s : State) : (s.setOverflow).cmdPort = s.cmdPort := rfl
@[simp] theorem setOverflow_script (s : State) : (s.setOverflow).script = s.script := rfl
@[simp] theorem setOverflow_storageOk (s : State) : (s.setOverflow).storageOk = s.storageOk := rfl

@[simp] theorem clearOverflow_cfg (s : State) : (s.clearOverflow).cfg = s.cfg := rfl
@[simp] theorem clearOverflow_status (s : State) : (s.clearOverflow).status = clearRxovf s.status := rfl
@[simp] theorem clearOverflow_rxShift (s : State) : (s.clearOverflow).rxShift = s.rxShift := rfl
@[simp] theorem clearOverflow_rxBitcnt (s : State) : (s.clearOverflow).rxBitcnt = s.rxBitcnt := rfl
@[simp] theorem clearOverflow_rxPhase (s : State) : (s.clearOverflow).rxPhase = s.rxPhase := rfl
@[simp] theorem clearOverflow_rxCd (s : State) : (s.clearOverflow).rxCd = s.rxCd := rfl
@[simp] theorem clearOverflow_txShift (s : State) : (s.clearOverflow).txShift = s.txShift := rfl
@[simp] theorem clearOverflow_txBitcnt (s : State) : (s.clearOverflow).txBitcnt = s.txBitcnt := rfl
@[simp] theorem clearOverflow_txPhase (s : State) : (s.clearOverflow).txPhase = s.txPhase := rfl
@[simp] theorem clearOverflow_txd (s : State) : (s.clearOverflow).txd = s.txd := rfl
@[simp] theorem clearOverflow_txdOe (s : State) : (s.clearOverflow).txdOe = s.txdOe := rfl
@[simp] theorem clearOverflow_edgeIe (s : State) : (s.clearOverflow).edgeIe = s.edgeIe := rfl
@[simp] theorem clearOverflow_edgePend (s : State) : (s.clearOverflow).edgePend = s.edgePend := rfl
@[simp] theorem clearOverflow_tmrRun (s : State) : (s.clearOverflow).tmrRun = s.tmrRun := rfl
@[simp] theorem clearOverflow_tickIe (s : State) : (s.clearOverflow).tickIe = s.tickIe := rfl
@[simp] theorem clearOverflow_tmrPs (s : State) : (s.clearOverflow).tmrPs = s.tmrPs := rfl
@[simp] theorem clearOverflow_tmrTop (s : State) : (s.clearOverflow).tmrTop = s.tmrTop := rfl
@[simp] theorem clearOverflow_thresh (s : State) : (s.clearOverflow).thresh = s.thresh := rfl
@[simp] theorem clearOverflow_rateSel (s : State) : (s.clearOverflow).rateSel = s.rateSel := rfl
@[simp] theorem clearOverflow_gie (s : State) : (s.clearOverflow).gie = s.gie := rfl
@[simp] theorem clearOverflow_rxf (s : State) : (s.clearOverflow).rxf = s.rxf := rfl
@[simp] theorem clearOverflow_txf (s : State) : (s.clearOverflow).txf = s.txf := rfl
@[simp] theorem clearOverflow_fault (s : State) : (s.clearOverflow).fault = s.fault := rfl
@[simp] theorem clearOverflow_fgOp (s : State) : (s.clearOverflow).fgOp = s.fgOp := rfl
@[simp] theorem clearOverflow_fgStep (s : State) : (s.clearOverflow).fgStep = s.fgStep := rfl
@[simp] theorem clearOverflow_fgT (s : State) : (s.clearOverflow).fgT = s.fgT := rfl
@[simp] theorem clearOverflow_fgV (s : State) : (s.clearOverflow).fgV = s.fgV := rfl
@[simp] theorem clearOverflow_fgAcc (s : State) : (s.clearOverflow).fgAcc = s.fgAcc := rfl
@[simp] theorem clearOverflow_results (s : State) : (s.clearOverflow).results = s.results := rfl
@[simp] theorem clearOverflow_cmdPort (s : State) : (s.clearOverflow).cmdPort = s.cmdPort := rfl
@[simp] theorem clearOverflow_script (s : State) : (s.clearOverflow).script = s.script := rfl
@[simp] theorem clearOverflow_storageOk (s : State) : (s.clearOverflow).storageOk = s.storageOk := rfl

@[simp] theorem interruptEnter_cfg (s : State) : (interruptEnter s).cfg = s.cfg := rfl
@[simp] theorem interruptEnter_status (s : State) : (interruptEnter s).status = s.status := rfl
@[simp] theorem interruptEnter_rxShift (s : State) : (interruptEnter s).rxShift = s.rxShift := rfl
@[simp] theorem interruptEnter_rxBitcnt (s : State) : (interruptEnter s).rxBitcnt = s.rxBitcnt := rfl
@[simp] theorem interruptEnter_rxPhase (s : State) : (interruptEnter s).rxPhase = s.rxPhase := rfl
@[simp] theorem interruptEnter_rxCd (s : State) : (interruptEnter s).rxCd = s.rxCd := rfl
@[simp] theorem interruptEnter_txShift (s : State) : (interruptEnter s).txShift = s.txShift := rfl
@[simp] theorem interruptEnter_txBitcnt (s : State) : (interruptEnter s).txBitcnt = s.txBitcnt := rfl
@[simp] theorem interruptEnter_txPhase (s : State) : (interruptEnter s).txPhase = s.txPhase := rfl
@[simp] theorem interruptEnter_txd (s : State) : (interruptEnter s).txd = s.txd := rfl
@[simp] theorem interruptEnter_txdOe (s : State) : (interruptEnter s).txdOe = s.txdOe := rfl
@[simp] theorem interruptEnter_edgeIe (s : State) : (interruptEnter s).edgeIe = s.edgeIe := rfl
@[simp] theorem interruptEnter_edgePend (s : State) : (interruptEnter s).edgePend = s.edgePend := rfl
@[simp] theorem interruptEnter_tmrRun (s : State) : (interruptEnter s).tmrRun = s.tmrRun := rfl
@[simp] theorem interruptEnter_tickIe (s : State) : (interruptEnter s).tickIe = s.tickIe := rfl
@[simp] theorem interruptEnter_tmrPs (s : State) : (interruptEnter s).tmrPs = s.tmrPs := rfl
@[simp] theorem interruptEnter_tmrTop (s : State) : (interruptEnter s).tmrTop = s.tmrTop := rfl
@[simp] theorem interruptEnter_thresh (s : State) : (interruptEnter s).thresh = s.thresh := rfl
@[simp] theorem interruptEnter_rateSel (s : State) : (interruptEnter s).rateSel = s.rateSel := rfl
@[simp] theorem interruptEnter_gie (s : State) : (interruptEnter s).gie = false := rfl
@[simp] theorem interruptEnter_rxf (s : State) : (interruptEnter s).rxf = s.rxf := rfl
@[simp] theorem interruptEnter_txf (s : State) : (interruptEnter s).txf = s.txf := rfl
@[simp] theorem interruptEnter_fault (s : State) : (interruptEnter s).fault = s.fault := rfl
@[simp] theorem interruptEnter_fgOp (s : State) : (interruptEnter s).fgOp = s.fgOp := rfl
@[simp] theorem interruptEnter_fgStep (s : State) : (interruptEnter s).fgStep = s.fgStep := rfl
@[simp] theorem interruptEnter_fgT (s : State) : (interruptEnter s).fgT = s.fgT := rfl
@[simp] theorem interruptEnter_fgV (s : State) : (interruptEnter s).fgV = s.fgV := rfl
@[simp] theorem interruptEnter_fgAcc (s : State) : (interruptEnter s).fgAcc = s.fgAcc := rfl
@[simp] theorem interruptEnter_results (s : State) : (interruptEnter s).results = s.results := rfl
@[simp] theorem interruptEnter_cmdPort (s : State) : (interruptEnter s).cmdPort = s.cmdPort := rfl
@[simp] theorem interruptEnter_script (s : State) : (interruptEnter s).script = s.script := rfl
@[simp] theorem interruptEnter_storageOk (s : State) : (interruptEnter s).storageOk = s.storageOk := rfl

@[simp] theorem interruptReturn_cfg (g : Bool) (s : State) : (interruptReturn g s).cfg = s.cfg := rfl
@[simp] theorem interruptReturn_status (g : Bool) (s : State) : (interruptReturn g s).status = s.status := rfl
@[simp] theorem interruptReturn_rxShift (g : Bool) (s : State) : (interruptReturn g s).rxShift = s.rxShift := rfl
@[simp] theorem interruptReturn_rxBitcnt (g : Bool) (s : State) : (interruptReturn g s).rxBitcnt = s.rxBitcnt := rfl
@[simp] theorem interruptReturn_rxPhase (g : Bool) (s : State) : (interruptReturn g s).rxPhase = s.rxPhase := rfl
@[simp] theorem interruptReturn_rxCd (g : Bool) (s : State) : (interruptReturn g s).rxCd = s.rxCd := rfl
@[simp] theorem interruptReturn_txShift (g : Bool) (s : State) : (interruptReturn g s).txShift = s.txShift := rfl
@[simp] theorem interruptReturn_txBitcnt (g : Bool) (s : State) : (interruptReturn g s).txBitcnt = s.txBitcnt := rfl
@[simp] theorem interruptReturn_txPhase (g : Bool) (s : State) : (interruptReturn g s).txPhase = s.txPhase := rfl
@[simp] theorem interruptReturn_txd (g : Bool) (s : State) : (interruptReturn g s).txd = s.txd := rfl
@[simp] theorem interruptReturn_txdOe (g : Bool) (s : State) : (interruptReturn g s).txdOe = s.txdOe := rfl
@[simp] theorem interruptReturn_edgeIe (g : Bool) (s : State) : (interruptReturn g s).edgeIe = s.edgeIe := rfl
@[simp] theorem interruptReturn_edgePend (g : Bool) (s : State) : (interruptReturn g s).edgePend = s.edgePend := rfl
@[simp] theorem interruptReturn_tmrRun (g : Bool) (s : State) : (interruptReturn g s).tmrRun = s.tmrRun := rfl
@[simp] theorem interruptReturn_tickIe (g : Bool) (s : State) : (interruptReturn g s).tickIe = s.tickIe := rfl
@[simp] theorem interruptReturn_tmrPs (g : Bool) (s : State) : (interruptReturn g s).tmrPs = s.tmrPs := rfl
@[simp] theorem interruptReturn_tmrTop (g : Bool) (s : State) : (interruptReturn g s).tmrTop = s.tmrTop := rfl
@[simp] theorem interruptReturn_thresh (g : Bool) (s : State) : (interruptReturn g s).thresh = s.thresh := rfl
@[simp] theorem interruptReturn_rateSel (g : Bool) (s : State) : (interruptReturn g s).rateSel = s.rateSel := rfl
@[simp] theorem interruptReturn_gie (g : Bool) (s : State) : (interruptReturn g s).gie = g := rfl
@[simp] theorem interruptReturn_rxf (g : Bool) (s : State) : (interruptReturn g s).rxf = s.rxf := rfl
@[simp] theorem interruptReturn_txf (g : Bool) (s : State) : (interruptReturn g s).txf = s.txf := rfl
@[simp] theorem interruptReturn_fault (g : Bool) (s : State) : (interruptReturn g s).fault = s.fault := rfl
@[simp] theorem interruptReturn_fgOp (g : Bool) (s : State) : (interruptReturn g s).fgOp = s.fgOp := rfl
@[simp] theorem interruptReturn_fgStep (g : Bool) (s : State) : (interruptReturn g s).fgStep = s.fgStep := rfl
@[simp] theorem interruptReturn_fgT (g : Bool) (s : State) : (interruptReturn g s).fgT = s.fgT := rfl
@[simp] theorem interruptReturn_fgV (g : Bool) (s : State) : (interruptReturn g s).fgV = s.fgV := rfl
@[simp] theorem interruptReturn_fgAcc (g : Bool) (s : State) : (interruptReturn g s).fgAcc = s.fgAcc := rfl
@[simp] theorem interruptReturn_results (g : Bool) (s : State) : (interruptReturn g s).results = s.results := rfl
@[simp] theorem interruptReturn_cmdPort (g : Bool) (s : State) : (interruptReturn g s).cmdPort = s.cmdPort := rfl
@[simp] theorem interruptReturn_script (g : Bool) (s : State) : (interruptReturn g s).script = s.script := rfl
@[simp] theorem interruptReturn_storageOk (g : Bool) (s : State) : (interruptReturn g s).storageOk = s.storageOk := rfl

@[simp] theorem goTo_cfg (i : Instr) (l : FgStep) (s : State) : (goTo i l s).cfg = s.cfg := rfl
@[simp] theorem goTo_status (i : Instr) (l : FgStep) (s : State) : (goTo i l s).status = s.status := rfl
@[simp] theorem goTo_rxShift (i : Instr) (l : FgStep) (s : State) : (goTo i l s).rxShift = s.rxShift := rfl
@[simp] theorem goTo_rxBitcnt (i : Instr) (l : FgStep) (s : State) : (goTo i l s).rxBitcnt = s.rxBitcnt := rfl
@[simp] theorem goTo_rxPhase (i : Instr) (l : FgStep) (s : State) : (goTo i l s).rxPhase = s.rxPhase := rfl
@[simp] theorem goTo_rxCd (i : Instr) (l : FgStep) (s : State) : (goTo i l s).rxCd = s.rxCd := rfl
@[simp] theorem goTo_txShift (i : Instr) (l : FgStep) (s : State) : (goTo i l s).txShift = s.txShift := rfl
@[simp] theorem goTo_txBitcnt (i : Instr) (l : FgStep) (s : State) : (goTo i l s).txBitcnt = s.txBitcnt := rfl
@[simp] theorem goTo_txPhase (i : Instr) (l : FgStep) (s : State) : (goTo i l s).txPhase = s.txPhase := rfl
@[simp] theorem goTo_txd (i : Instr) (l : FgStep) (s : State) : (goTo i l s).txd = s.txd := rfl
@[simp] theorem goTo_txdOe (i : Instr) (l : FgStep) (s : State) : (goTo i l s).txdOe = s.txdOe := rfl
@[simp] theorem goTo_edgeIe (i : Instr) (l : FgStep) (s : State) : (goTo i l s).edgeIe = s.edgeIe := rfl
@[simp] theorem goTo_edgePend (i : Instr) (l : FgStep) (s : State) : (goTo i l s).edgePend = s.edgePend := rfl
@[simp] theorem goTo_tmrRun (i : Instr) (l : FgStep) (s : State) : (goTo i l s).tmrRun = s.tmrRun := rfl
@[simp] theorem goTo_tickIe (i : Instr) (l : FgStep) (s : State) : (goTo i l s).tickIe = s.tickIe := rfl
@[simp] theorem goTo_tmrPs (i : Instr) (l : FgStep) (s : State) : (goTo i l s).tmrPs = s.tmrPs := rfl
@[simp] theorem goTo_tmrTop (i : Instr) (l : FgStep) (s : State) : (goTo i l s).tmrTop = s.tmrTop := rfl
@[simp] theorem goTo_thresh (i : Instr) (l : FgStep) (s : State) : (goTo i l s).thresh = s.thresh := rfl
@[simp] theorem goTo_rateSel (i : Instr) (l : FgStep) (s : State) : (goTo i l s).rateSel = s.rateSel := rfl
@[simp] theorem goTo_gie (i : Instr) (l : FgStep) (s : State) : (goTo i l s).gie = s.gie := rfl
@[simp] theorem goTo_rxf (i : Instr) (l : FgStep) (s : State) : (goTo i l s).rxf = s.rxf := rfl
@[simp] theorem goTo_txf (i : Instr) (l : FgStep) (s : State) : (goTo i l s).txf = s.txf := rfl
@[simp] theorem goTo_fault (i : Instr) (l : FgStep) (s : State) : (goTo i l s).fault = s.fault := rfl
@[simp] theorem goTo_fgOp (i : Instr) (l : FgStep) (s : State) : (goTo i l s).fgOp = some i := rfl
@[simp] theorem goTo_fgStep (i : Instr) (l : FgStep) (s : State) : (goTo i l s).fgStep = l := rfl
@[simp] theorem goTo_fgT (i : Instr) (l : FgStep) (s : State) : (goTo i l s).fgT = s.fgT := rfl
@[simp] theorem goTo_fgV (i : Instr) (l : FgStep) (s : State) : (goTo i l s).fgV = s.fgV := rfl
@[simp] theorem goTo_fgAcc (i : Instr) (l : FgStep) (s : State) : (goTo i l s).fgAcc = s.fgAcc := rfl
@[simp] theorem goTo_results (i : Instr) (l : FgStep) (s : State) : (goTo i l s).results = s.results := rfl
@[simp] theorem goTo_cmdPort (i : Instr) (l : FgStep) (s : State) : (goTo i l s).cmdPort = s.cmdPort := rfl
@[simp] theorem goTo_script (i : Instr) (l : FgStep) (s : State) : (goTo i l s).script = s.script := rfl
@[simp] theorem goTo_storageOk (i : Instr) (l : FgStep) (s : State) : (goTo i l s).storageOk = s.storageOk := rfl

@[simp] theorem deliver_cfg (v : BitVec 16) (s : State) : (deliver v s).cfg = s.cfg := rfl
@[simp] theorem deliver_status (v : BitVec 16) (s : State) : (deliver v s).status = s.status := rfl
@[simp] theorem deliver_rxShift (v : BitVec 16) (s : State) : (deliver v s).rxShift = s.rxShift := rfl
@[simp] theorem deliver_rxBitcnt (v : BitVec 16) (s : State) : (deliver v s).rxBitcnt = s.rxBitcnt := rfl
@[simp] theorem deliver_rxPhase (v : BitVec 16) (s : State) : (deliver v s).rxPhase = s.rxPhase := rfl
@[simp] theorem deliver_rxCd (v : BitVec 16) (s : State) : (deliver v s).rxCd = s.rxCd := rfl
@[simp] theorem deliver_txShift (v : BitVec 16) (s : State) : (deliver v s).txShift = s.txShift := rfl
@[simp] theorem deliver_txBitcnt (v : BitVec 16) (s : State) : (deliver v s).txBitcnt = s.txBitcnt := rfl
@[simp] theorem deliver_txPhase (v : BitVec 16) (s : State) : (deliver v s).txPhase = s.txPhase := rfl
@[simp] theorem deliver_txd (v : BitVec 16) (s : State) : (deliver v s).txd = s.txd := rfl
@[simp] theorem deliver_txdOe (v : BitVec 16) (s : State) : (deliver v s).txdOe = s.txdOe := rfl
@[simp] theorem deliver_edgeIe (v : BitVec 16) (s : State) : (deliver v s).edgeIe = s.edgeIe := rfl
@[simp] theorem deliver_edgePend (v : BitVec 16) (s : State) : (deliver v s).edgePend = s.edgePend := rfl
@[simp] theorem deliver_tmrRun (v : BitVec 16) (s : State) : (deliver v s).tmrRun = s.tmrRun := rfl
@[simp] theorem deliver_tickIe (v : BitVec 16) (s : State) : (deliver v s).tickIe = s.tickIe := rfl
@[simp] theorem deliver_tmrPs (v : BitVec 16) (s : State) : (deliver v s).tmrPs = s.tmrPs := rfl
@[simp] theorem deliver_tmrTop (v : BitVec 16) (s : State) : (deliver v s).tmrTop = s.tmrTop := rfl
@[simp] theorem deliver_thresh (v : BitVec 16) (s : State) : (deliver v s).thresh = s.thresh := rfl
@[simp] theorem deliver_rateSel (v : BitVec 16) (s : State) : (deliver v s).rateSel = s.rateSel := rfl
@[simp] theorem deliver_gie (v : BitVec 16) (s : State) : (deliver v s).gie = s.gie := rfl
@[simp] theorem deliver_rxf (v : BitVec 16) (s : State) : (deliver v s).rxf = s.rxf := rfl
@[simp] theorem deliver_txf (v : BitVec 16) (s : State) : (deliver v s).txf = s.txf := rfl
@[simp] theorem deliver_fault (v : BitVec 16) (s : State) : (deliver v s).fault = s.fault := rfl
@[simp] theorem deliver_fgOp (v : BitVec 16) (s : State) : (deliver v s).fgOp = none := rfl
@[simp] theorem deliver_fgStep (v : BitVec 16) (s : State) : (deliver v s).fgStep = s.fgStep := rfl
@[simp] theorem deliver_fgT (v : BitVec 16) (s : State) : (deliver v s).fgT = s.fgT := rfl
@[simp] theorem deliver_fgV (v : BitVec 16) (s : State) : (deliver v s).fgV = s.fgV := rfl
@[simp] theorem deliver_fgAcc (v : BitVec 16) (s : State) : (deliver v s).fgAcc = s.fgAcc := rfl
@[simp] theorem deliver_results (v : BitVec 16) (s : State) : (deliver v s).results = s.results ++ [resultWord v] := rfl
@[simp] theorem deliver_cmdPort (v : BitVec 16) (s : State) : (deliver v s).cmdPort = s.cmdPort := rfl
@[simp] theorem deliver_script (v : BitVec 16) (s : State) : (deliver v s).script = s.script := rfl
@[simp] theorem deliver_storageOk (v : BitVec 16) (s : State) : (deliver v s).storageOk = s.storageOk := rfl

@[simp] theorem deliverFrom_cfg (l : FgStep) (v : BitVec 16) (s : State) : (deliverFrom l v s).cfg = s.cfg := rfl
@[simp] theorem deliverFrom_status (l : FgStep) (v : BitVec 16) (s : State) : (deliverFrom l v s).status = s.status := rfl
@[simp] theorem deliverFrom_rxShift (l : FgStep) (v : BitVec 16) (s : State) : (deliverFrom l v s).rxShift = s.rxShift := rfl
@[simp] theorem deliverFrom_rxBitcnt (l : FgStep) (v : BitVec 16) (s : State) : (deliverFrom l v s).rxBitcnt = s.rxBitcnt := rfl
@[simp] theorem deliverFrom_rxPhase (l : FgStep) (v : BitVec 16) (s : State) : (deliverFrom l v s).rxPhase = s.rxPhase := rfl
@[simp] theorem deliverFrom_rxCd (l : FgStep) (v : BitVec 16) (s : State) : (deliverFrom l v s).rxCd = s.rxCd := rfl
@[simp] theorem deliverFrom_txShift (l : FgStep) (v : BitVec 16) (s : State) : (deliverFrom l v s).txShift = s.txShift := rfl
@[simp] theorem deliverFrom_txBitcnt (l : FgStep) (v : BitVec 16) (s : State) : (deliverFrom l v s).txBitcnt = s.txBitcnt := rfl
@[simp] theorem deliverFrom_txPhase (l : FgStep) (v : BitVec 16) (s : State) : (deliverFrom l v s).txPhase = s.txPhase := rfl
@[simp] theorem deliverFrom_txd (l : FgStep) (v : BitVec 16) (s : State) : (deliverFrom l v s).txd = s.txd := rfl
@[simp] theorem deliverFrom_txdOe (l : FgStep) (v : BitVec 16) (s : State) : (deliverFrom l v s).txdOe = s.txdOe := rfl
@[simp] theorem deliverFrom_edgeIe (l : FgStep) (v : BitVec 16) (s : State) : (deliverFrom l v s).edgeIe = s.edgeIe := rfl
@[simp] theorem deliverFrom_edgePend (l : FgStep) (v : BitVec 16) (s : State) : (deliverFrom l v s).edgePend = s.edgePend := rfl
@[simp] theorem deliverFrom_tmrRun (l : FgStep) (v : BitVec 16) (s : State) : (deliverFrom l v s).tmrRun = s.tmrRun := rfl
@[simp] theorem deliverFrom_tickIe (l : FgStep) (v : BitVec 16) (s : State) : (deliverFrom l v s).tickIe = s.tickIe := rfl
@[simp] theorem deliverFrom_tmrPs (l : FgStep) (v : BitVec 16) (s : State) : (deliverFrom l v s).tmrPs = s.tmrPs := rfl
@[simp] theorem deliverFrom_tmrTop (l : FgStep) (v : BitVec 16) (s : State) : (deliverFrom l v s).tmrTop = s.tmrTop := rfl
@[simp] theorem deliverFrom_thresh (l : FgStep) (v : BitVec 16) (s : State) : (deliverFrom l v s).thresh = s.thresh := rfl
@[simp] theorem deliverFrom_rateSel (l : FgStep) (v : BitVec 16) (s : State) : (deliverFrom l v s).rateSel = s.rateSel := rfl
@[simp] theorem deliverFrom_gie (l : FgStep) (v : BitVec 16) (s : State) : (deliverFrom l v s).gie = s.gie := rfl
@[simp] theorem deliverFrom_rxf (l : FgStep) (v : BitVec 16) (s : State) : (deliverFrom l v s).rxf = s.rxf := rfl
@[simp] theorem deliverFrom_txf (l : FgStep) (v : BitVec 16) (s : State) : (deliverFrom l v s).txf = s.txf := rfl
@[simp] theorem deliverFrom_fault (l : FgStep) (v : BitVec 16) (s : State) : (deliverFrom l v s).fault = s.fault := rfl
@[simp] theorem deliverFrom_fgOp (l : FgStep) (v : BitVec 16) (s : State) : (deliverFrom l v s).fgOp = none := rfl
@[simp] theorem deliverFrom_fgStep (l : FgStep) (v : BitVec 16) (s : State) : (deliverFrom l v s).fgStep = l := rfl
@[simp] theorem deliverFrom_fgT (l : FgStep) (v : BitVec 16) (s : State) : (deliverFrom l v s).fgT = s.fgT := rfl
@[simp] theorem deliverFrom_fgV (l : FgStep) (v : BitVec 16) (s : State) : (deliverFrom l v s).fgV = s.fgV := rfl
@[simp] theorem deliverFrom_fgAcc (l : FgStep) (v : BitVec 16) (s : State) : (deliverFrom l v s).fgAcc = s.fgAcc := rfl
@[simp] theorem deliverFrom_results (l : FgStep) (v : BitVec 16) (s : State) : (deliverFrom l v s).results = s.results ++ [resultWord v] := rfl
@[simp] theorem deliverFrom_cmdPort (l : FgStep) (v : BitVec 16) (s : State) : (deliverFrom l v s).cmdPort = s.cmdPort := rfl
@[simp] theorem deliverFrom_script (l : FgStep) (v : BitVec 16) (s : State) : (deliverFrom l v s).script = s.script := rfl
@[simp] theorem deliverFrom_storageOk (l : FgStep) (v : BitVec 16) (s : State) : (deliverFrom l v s).storageOk = s.storageOk := rfl

@[simp] theorem setFifo_rx_cfg (s : State) (x : Fifo) : (s.setFifo .rx x).cfg = s.cfg := rfl
@[simp] theorem setFifo_rx_status (s : State) (x : Fifo) : (s.setFifo .rx x).status = s.status := rfl
@[simp] theorem setFifo_rx_rxShift (s : State) (x : Fifo) : (s.setFifo .rx x).rxShift = s.rxShift := rfl
@[simp] theorem setFifo_rx_rxBitcnt (s : State) (x : Fifo) : (s.setFifo .rx x).rxBitcnt = s.rxBitcnt := rfl
@[simp] theorem setFifo_rx_rxPhase (s : State) (x : Fifo) : (s.setFifo .rx x).rxPhase = s.rxPhase := rfl
@[simp] theorem setFifo_rx_rxCd (s : State) (x : Fifo) : (s.setFifo .rx x).rxCd = s.rxCd := rfl
@[simp] theorem setFifo_rx_txShift (s : State) (x : Fifo) : (s.setFifo .rx x).txShift = s.txShift := rfl
@[simp] theorem setFifo_rx_txBitcnt (s : State) (x : Fifo) : (s.setFifo .rx x).txBitcnt = s.txBitcnt := rfl
@[simp] theorem setFifo_rx_txPhase (s : State) (x : Fifo) : (s.setFifo .rx x).txPhase = s.txPhase := rfl
@[simp] theorem setFifo_rx_txd (s : State) (x : Fifo) : (s.setFifo .rx x).txd = s.txd := rfl
@[simp] theorem setFifo_rx_txdOe (s : State) (x : Fifo) : (s.setFifo .rx x).txdOe = s.txdOe := rfl
@[simp] theorem setFifo_rx_edgeIe (s : State) (x : Fifo) : (s.setFifo .rx x).edgeIe = s.edgeIe := rfl
@[simp] theorem setFifo_rx_edgePend (s : State) (x : Fifo) : (s.setFifo .rx x).edgePend = s.edgePend := rfl
@[simp] theorem setFifo_rx_tmrRun (s : State) (x : Fifo) : (s.setFifo .rx x).tmrRun = s.tmrRun := rfl
@[simp] theorem setFifo_rx_tickIe (s : State) (x : Fifo) : (s.setFifo .rx x).tickIe = s.tickIe := rfl
@[simp] theorem setFifo_rx_tmrPs (s : State) (x : Fifo) : (s.setFifo .rx x).tmrPs = s.tmrPs := rfl
@[simp] theorem setFifo_rx_tmrTop (s : State) (x : Fifo) : (s.setFifo .rx x).tmrTop = s.tmrTop := rfl
@[simp] theorem setFifo_rx_thresh (s : State) (x : Fifo) : (s.setFifo .rx x).thresh = s.thresh := rfl
@[simp] theorem setFifo_rx_rateSel (s : State) (x : Fifo) : (s.setFifo .rx x).rateSel = s.rateSel := rfl
@[simp] theorem setFifo_rx_gie (s : State) (x : Fifo) : (s.setFifo .rx x).gie = s.gie := rfl
@[simp] theorem setFifo_rx_rxf (s : State) (x : Fifo) : (s.setFifo .rx x).rxf = x := rfl
@[simp] theorem setFifo_rx_txf (s : State) (x : Fifo) : (s.setFifo .rx x).txf = s.txf := rfl
@[simp] theorem setFifo_rx_fault (s : State) (x : Fifo) : (s.setFifo .rx x).fault = s.fault := rfl
@[simp] theorem setFifo_rx_fgOp (s : State) (x : Fifo) : (s.setFifo .rx x).fgOp = s.fgOp := rfl
@[simp] theorem setFifo_rx_fgStep (s : State) (x : Fifo) : (s.setFifo .rx x).fgStep = s.fgStep := rfl
@[simp] theorem setFifo_rx_fgT (s : State) (x : Fifo) : (s.setFifo .rx x).fgT = s.fgT := rfl
@[simp] theorem setFifo_rx_fgV (s : State) (x : Fifo) : (s.setFifo .rx x).fgV = s.fgV := rfl
@[simp] theorem setFifo_rx_fgAcc (s : State) (x : Fifo) : (s.setFifo .rx x).fgAcc = s.fgAcc := rfl
@[simp] theorem setFifo_rx_results (s : State) (x : Fifo) : (s.setFifo .rx x).results = s.results := rfl
@[simp] theorem setFifo_rx_cmdPort (s : State) (x : Fifo) : (s.setFifo .rx x).cmdPort = s.cmdPort := rfl
@[simp] theorem setFifo_rx_script (s : State) (x : Fifo) : (s.setFifo .rx x).script = s.script := rfl
@[simp] theorem setFifo_rx_storageOk (s : State) (x : Fifo) : (s.setFifo .rx x).storageOk = s.storageOk := rfl

@[simp] theorem setFifo_tx_cfg (s : State) (x : Fifo) : (s.setFifo .tx x).cfg = s.cfg := rfl
@[simp] theorem setFifo_tx_status (s : State) (x : Fifo) : (s.setFifo .tx x).status = s.status := rfl
@[simp] theorem setFifo_tx_rxShift (s : State) (x : Fifo) : (s.setFifo .tx x).rxShift = s.rxShift := rfl
@[simp] theorem setFifo_tx_rxBitcnt (s : State) (x : Fifo) : (s.setFifo .tx x).rxBitcnt = s.rxBitcnt := rfl
@[simp] theorem setFifo_tx_rxPhase (s : State) (x : Fifo) : (s.setFifo .tx x).rxPhase = s.rxPhase := rfl
@[simp] theorem setFifo_tx_rxCd (s : State) (x : Fifo) : (s.setFifo .tx x).rxCd = s.rxCd := rfl
@[simp] theorem setFifo_tx_txShift (s : State) (x : Fifo) : (s.setFifo .tx x).txShift = s.txShift := rfl
@[simp] theorem setFifo_tx_txBitcnt (s : State) (x : Fifo) : (s.setFifo .tx x).txBitcnt = s.txBitcnt := rfl
@[simp] theorem setFifo_tx_txPhase (s : State) (x : Fifo) : (s.setFifo .tx x).txPhase = s.txPhase := rfl
@[simp] theorem setFifo_tx_txd (s : State) (x : Fifo) : (s.setFifo .tx x).txd = s.txd := rfl
@[simp] theorem setFifo_tx_txdOe (s : State) (x : Fifo) : (s.setFifo .tx x).txdOe = s.txdOe := rfl
@[simp] theorem setFifo_tx_edgeIe (s : State) (x : Fifo) : (s.setFifo .tx x).edgeIe = s.edgeIe := rfl
@[simp] theorem setFifo_tx_edgePend (s : State) (x : Fifo) : (s.setFifo .tx x).edgePend = s.edgePend := rfl
@[simp] theorem setFifo_tx_tmrRun (s : State) (x : Fifo) : (s.setFifo .tx x).tmrRun = s.tmrRun := rfl
@[simp] theorem setFifo_tx_tickIe (s : State) (x : Fifo) : (s.setFifo .tx x).tickIe = s.tickIe := rfl
@[simp] theorem setFifo_tx_tmrPs (s : State) (x : Fifo) : (s.setFifo .tx x).tmrPs = s.tmrPs := rfl
@[simp] theorem setFifo_tx_tmrTop (s : State) (x : Fifo) : (s.setFifo .tx x).tmrTop = s.tmrTop := rfl
@[simp] theorem setFifo_tx_thresh (s : State) (x : Fifo) : (s.setFifo .tx x).thresh = s.thresh := rfl
@[simp] theorem setFifo_tx_rateSel (s : State) (x : Fifo) : (s.setFifo .tx x).rateSel = s.rateSel := rfl
@[simp] theorem setFifo_tx_gie (s : State) (x : Fifo) : (s.setFifo .tx x).gie = s.gie := rfl
@[simp] theorem setFifo_tx_rxf (s : State) (x : Fifo) : (s.setFifo .tx x).rxf = s.rxf := rfl
@[simp] theorem setFifo_tx_txf (s : State) (x : Fifo) : (s.setFifo .tx x).txf = x := rfl
@[simp] theorem setFifo_tx_fault (s : State) (x : Fifo) : (s.setFifo .tx x).fault = s.fault := rfl
@[simp] theorem setFifo_tx_fgOp (s : State) (x : Fifo) : (s.setFifo .tx x).fgOp = s.fgOp := rfl
@[simp] theorem setFifo_tx_fgStep (s : State) (x : Fifo) : (s.setFifo .tx x).fgStep = s.fgStep := rfl
@[simp] theorem setFifo_tx_fgT (s : State) (x : Fifo) : (s.setFifo .tx x).fgT = s.fgT := rfl
@[simp] theorem setFifo_tx_fgV (s : State) (x : Fifo) : (s.setFifo .tx x).fgV = s.fgV := rfl
@[simp] theorem setFifo_tx_fgAcc (s : State) (x : Fifo) : (s.setFifo .tx x).fgAcc = s.fgAcc := rfl
@[simp] theorem setFifo_tx_results (s : State) (x : Fifo) : (s.setFifo .tx x).results = s.results := rfl
@[simp] theorem setFifo_tx_cmdPort (s : State) (x : Fifo) : (s.setFifo .tx x).cmdPort = s.cmdPort := rfl
@[simp] theorem setFifo_tx_script (s : State) (x : Fifo) : (s.setFifo .tx x).script = s.script := rfl
@[simp] theorem setFifo_tx_storageOk (s : State) (x : Fifo) : (s.setFifo .tx x).storageOk = s.storageOk := rfl

@[simp] theorem raiseFault_cfg (c : FaultCode) (s : State) : (raiseFault c s).cfg = s.cfg := by unfold raiseFault; split <;> rfl
@[simp] theorem raiseFault_status (c : FaultCode) (s : State) : (raiseFault c s).status = s.status := by unfold raiseFault; split <;> rfl
@[simp] theorem raiseFault_rxShift (c : FaultCode) (s : State) : (raiseFault c s).rxShift = s.rxShift := by unfold raiseFault; split <;> rfl
@[simp] theorem raiseFault_rxBitcnt (c : FaultCode) (s : State) : (raiseFault c s).rxBitcnt = s.rxBitcnt := by unfold raiseFault; split <;> rfl
@[simp] theorem raiseFault_rxPhase (c : FaultCode) (s : State) : (raiseFault c s).rxPhase = s.rxPhase := by unfold raiseFault; split <;> rfl
@[simp] theorem raiseFault_rxCd (c : FaultCode) (s : State) : (raiseFault c s).rxCd = s.rxCd := by unfold raiseFault; split <;> rfl
@[simp] theorem raiseFault_txShift (c : FaultCode) (s : State) : (raiseFault c s).txShift = s.txShift := by unfold raiseFault; split <;> rfl
@[simp] theorem raiseFault_txBitcnt (c : FaultCode) (s : State) : (raiseFault c s).txBitcnt = s.txBitcnt := by unfold raiseFault; split <;> rfl
@[simp] theorem raiseFault_txPhase (c : FaultCode) (s : State) : (raiseFault c s).txPhase = s.txPhase := by unfold raiseFault; split <;> rfl
@[simp] theorem raiseFault_txd (c : FaultCode) (s : State) : (raiseFault c s).txd = s.txd := by unfold raiseFault; split <;> rfl
@[simp] theorem raiseFault_txdOe (c : FaultCode) (s : State) : (raiseFault c s).txdOe = s.txdOe := by unfold raiseFault; split <;> rfl
@[simp] theorem raiseFault_edgeIe (c : FaultCode) (s : State) : (raiseFault c s).edgeIe = s.edgeIe := by unfold raiseFault; split <;> rfl
@[simp] theorem raiseFault_edgePend (c : FaultCode) (s : State) : (raiseFault c s).edgePend = s.edgePend := by unfold raiseFault; split <;> rfl
@[simp] theorem raiseFault_tmrRun (c : FaultCode) (s : State) : (raiseFault c s).tmrRun = s.tmrRun := by unfold raiseFault; split <;> rfl
@[simp] theorem raiseFault_tickIe (c : FaultCode) (s : State) : (raiseFault c s).tickIe = s.tickIe := by unfold raiseFault; split <;> rfl
@[simp] theorem raiseFault_tmrPs (c : FaultCode) (s : State) : (raiseFault c s).tmrPs = s.tmrPs := by unfold raiseFault; split <;> rfl
@[simp] theorem raiseFault_tmrTop (c : FaultCode) (s : State) : (raiseFault c s).tmrTop = s.tmrTop := by unfold raiseFault; split <;> rfl
@[simp] theorem raiseFault_thresh (c : FaultCode) (s : State) : (raiseFault c s).thresh = s.thresh := by unfold raiseFault; split <;> rfl
@[simp] theorem raiseFault_rateSel (c : FaultCode) (s : State) : (raiseFault c s).rateSel = s.rateSel := by unfold raiseFault; split <;> rfl
@[simp] theorem raiseFault_gie (c : FaultCode) (s : State) : (raiseFault c s).gie = s.gie := by unfold raiseFault; split <;> rfl
@[simp] theorem raiseFault_rxf (c : FaultCode) (s : State) : (raiseFault c s).rxf = s.rxf := by unfold raiseFault; split <;> rfl
@[simp] theorem raiseFault_txf (c : FaultCode) (s : State) : (raiseFault c s).txf = s.txf := by unfold raiseFault; split <;> rfl
@[simp] theorem raiseFault_fgOp (c : FaultCode) (s : State) : (raiseFault c s).fgOp = s.fgOp := by unfold raiseFault; split <;> rfl
@[simp] theorem raiseFault_fgStep (c : FaultCode) (s : State) : (raiseFault c s).fgStep = s.fgStep := by unfold raiseFault; split <;> rfl
@[simp] theorem raiseFault_fgT (c : FaultCode) (s : State) : (raiseFault c s).fgT = s.fgT := by unfold raiseFault; split <;> rfl
@[simp] theorem raiseFault_fgV (c : FaultCode) (s : State) : (raiseFault c s).fgV = s.fgV := by unfold raiseFault; split <;> rfl
@[simp] theorem raiseFault_fgAcc (c : FaultCode) (s : State) : (raiseFault c s).fgAcc = s.fgAcc := by unfold raiseFault; split <;> rfl
@[simp] theorem raiseFault_results (c : FaultCode) (s : State) : (raiseFault c s).results = s.results := by unfold raiseFault; split <;> rfl
@[simp] theorem raiseFault_cmdPort (c : FaultCode) (s : State) : (raiseFault c s).cmdPort = s.cmdPort := by unfold raiseFault; split <;> rfl
@[simp] theorem raiseFault_script (c : FaultCode) (s : State) : (raiseFault c s).script = s.script := by unfold raiseFault; split <;> rfl
@[simp] theorem raiseFault_storageOk (c : FaultCode) (s : State) : (raiseFault c s).storageOk = s.storageOk := by unfold raiseFault; split <;> rfl
theorem raiseFault_fault (c : FaultCode) (s : State) (h : s.fault = none) : (raiseFault c s).fault = some c := by simp [raiseFault, h]
theorem raiseFault_of_none (c : FaultCode) (s : State) (h : s.fault = none) : raiseFault c s = { s with fault := some c } := by simp [raiseFault, h]

@[simp] theorem fifo_rx (s : State) : s.fifo .rx = s.rxf := rfl
@[simp] theorem fifo_tx (s : State) : s.fifo .tx = s.txf := rfl

end Sys2Proof.Laws
end

