-- ==== Sys2Proof/Laws/Status.lean ====
section
/-! SUPPORT. The masked writes of the status word against its fields (10_state.md R23 to R29): a write gives
its field the new value and leaves the other fields alone. The words are 8 bits, so each fact is decided. -/

namespace Sys2Proof.Laws

open Sys2Proof.Machine

@[simp] theorem rxsOf_setRxs (st : BitVec 8) (x : RxState) : rxsOf (setRxs st x) = x := by
  cases x <;> revert st <;> decide

@[simp] theorem txsOf_setRxs (st : BitVec 8) (x : RxState) : txsOf (setRxs st x) = txsOf st := by
  cases x <;> revert st <;> decide

@[simp] theorem rxovfOf_setRxs (st : BitVec 8) (x : RxState) : rxovfOf (setRxs st x) = rxovfOf st := by
  cases x <;> revert st <;> decide

@[simp] theorem notinitOf_setRxs (st : BitVec 8) (x : RxState) :
    notinitOf (setRxs st x) = notinitOf st := by
  cases x <;> revert st <;> decide

@[simp] theorem txsOf_setTxs (st : BitVec 8) (x : TxState) : txsOf (setTxs st x) = x := by
  cases x <;> revert st <;> decide

@[simp] theorem rxsOf_setTxs (st : BitVec 8) (x : TxState) : rxsOf (setTxs st x) = rxsOf st := by
  cases x <;> revert st <;> decide

@[simp] theorem rxovfOf_setTxs (st : BitVec 8) (x : TxState) : rxovfOf (setTxs st x) = rxovfOf st := by
  cases x <;> revert st <;> decide

@[simp] theorem notinitOf_setTxs (st : BitVec 8) (x : TxState) :
    notinitOf (setTxs st x) = notinitOf st := by
  cases x <;> revert st <;> decide

@[simp] theorem rxovfOf_setRxovf (st : BitVec 8) : rxovfOf (setRxovf st) = true := by
  revert st; decide

@[simp] theorem rxsOf_setRxovf (st : BitVec 8) : rxsOf (setRxovf st) = rxsOf st := by
  revert st; decide

@[simp] theorem txsOf_setRxovf (st : BitVec 8) : txsOf (setRxovf st) = txsOf st := by
  revert st; decide

@[simp] theorem notinitOf_setRxovf (st : BitVec 8) : notinitOf (setRxovf st) = notinitOf st := by
  revert st; decide

@[simp] theorem rxovfOf_clearRxovf (st : BitVec 8) : rxovfOf (clearRxovf st) = false := by
  revert st; decide

@[simp] theorem rxsOf_clearRxovf (st : BitVec 8) : rxsOf (clearRxovf st) = rxsOf st := by
  revert st; decide

@[simp] theorem txsOf_clearRxovf (st : BitVec 8) : txsOf (clearRxovf st) = txsOf st := by
  revert st; decide

@[simp] theorem notinitOf_clearRxovf (st : BitVec 8) : notinitOf (clearRxovf st) = notinitOf st := by
  revert st; decide

/-- The reserved bits keep their value under every masked write (R28). -/
theorem reserved_setRxs (st : BitVec 8) (x : RxState) : setRxs st x &&& 0x60 = st &&& 0x60 := by
  cases x <;> revert st <;> decide

theorem reserved_setTxs (st : BitVec 8) (x : TxState) : setTxs st x &&& 0x60 = st &&& 0x60 := by
  cases x <;> revert st <;> decide

theorem reserved_setRxovf (st : BitVec 8) : setRxovf st &&& 0x60 = st &&& 0x60 := by
  revert st; decide

theorem reserved_clearRxovf (st : BitVec 8) : clearRxovf st &&& 0x60 = st &&& 0x60 := by
  revert st; decide

/-- The field codes of R24 and R25 are read back. -/
@[simp] theorem RxState.ofCode_code (x : RxState) : RxState.ofCode x.code = x := by cases x <;> rfl

@[simp] theorem TxState.ofCode_code (x : TxState) : TxState.ofCode x.code = x := by cases x <;> rfl

/-- The two masked writes commute: the engines mutate one word independently (R29). -/
theorem setRxs_setTxs_comm (st : BitVec 8) (x : RxState) (y : TxState) :
    setRxs (setTxs st y) x = setTxs (setRxs st x) y := by
  cases x <;> cases y <;> revert st <;> decide

end Sys2Proof.Laws
end

