-- ==== Sys2Proof/Laws/Ops.lean ====
section
/-! SUPPORT. What each shared operation can do, said once: the course of a foreground command, of an event, of
an interrupt, and the FIFO primitives. -/

namespace Sys2Proof.Laws

open Sys2Proof.Machine

/-- A foreground step that answers a next state took the command and faulted it, took it and ran its first
micro-step, or ran the micro-step `FG_STEP` of the command in flight. -/
theorem foregroundStep_next {i : Instr} {first : FgStep}
    {body : FgStep → State → Host.Outcome State Fault Refusal} {s t : State}
    (h : foregroundStep i first body s = .next t) :
    s.fault = none ∧ s.edgeFireReady = false ∧
      ((s.fgOp = none ∧ i.wellFormed s.cfg = false ∧ t = raiseFault .illegalCommand s) ∨
       (s.fgOp = none ∧ i.wellFormed s.cfg = true ∧ needsLink i = true ∧ s.notinit = true ∧
          t = raiseFault .notInitialised s) ∨
       (s.fgOp = none ∧ i.wellFormed s.cfg = true ∧ (needsLink i && s.notinit) = false ∧
          body first s = .next t) ∨
       (s.fgOp = some i ∧ body s.fgStep s = .next t)) := by
  unfold foregroundStep at h
  split at h
  · cases h
  · rename_i hf
    split at h
    · cases h
    · rename_i he
      have he' : s.edgeFireReady = false := by simpa using he
      refine ⟨hf, he', ?_⟩
      split at h
      · rename_i ho
        split at h
        · rename_i hw
          cases h
          exact .inl ⟨ho, by simpa using hw, rfl⟩
        · rename_i hw
          have hw' : i.wellFormed s.cfg = true := by simpa using hw
          split at h
          · rename_i hn
            cases h
            rw [Bool.and_eq_true] at hn
            exact .inr (.inl ⟨ho, hw', hn.1, hn.2, rfl⟩)
          · rename_i hn
            exact .inr (.inr (.inl ⟨ho, hw', by simpa using hn, h⟩))
      · rename_i j ho
        split at h
        · rename_i hj
          subst hj
          exact .inr (.inr (.inr ⟨ho, h⟩))
        · cases h

/-- With the foreground idle and the command admitted, a foreground step is the first micro-step. -/
theorem foregroundStep_first {i : Instr} {first : FgStep}
    {body : FgStep → State → Host.Outcome State Fault Refusal} {s : State}
    (hf : s.fault = none) (he : s.edgeFireReady = false) (ho : s.fgOp = none)
    (hw : i.wellFormed s.cfg = true) (hn : (needsLink i && s.notinit) = false) :
    foregroundStep i first body s = body first s := by
  simp [foregroundStep, hf, he, ho, hw, hn]

/-- With the command in flight, a foreground step is the micro-step `FG_STEP`. -/
theorem foregroundStep_inFlight {i : Instr} {first : FgStep}
    {body : FgStep → State → Host.Outcome State Fault Refusal} {s : State}
    (hf : s.fault = none) (he : s.edgeFireReady = false) (ho : s.fgOp = some i) :
    foregroundStep i first body s = body s.fgStep s := by
  simp [foregroundStep, hf, he, ho]

/-- An event that answers a next state is one of the build, and its body answered that state. -/
theorem eventStep_next {i : Instr} {body : State → Host.Outcome State Fault Refusal} {s t : State}
    (h : eventStep i body s = .next t) :
    s.fault = none ∧ i.wellFormed s.cfg = true ∧ body s = .next t := by
  unfold eventStep at h
  split at h
  · cases h
  · rename_i hf
    split at h
    · rename_i hw
      exact ⟨hf, hw, h⟩
    · cases h

/-- An admitted event is its body. -/
theorem eventStep_run {i : Instr} {body : State → Host.Outcome State Fault Refusal} {s : State}
    (hf : s.fault = none) (hw : i.wellFormed s.cfg = true) : eventStep i body s = body s := by
  simp [eventStep, hf, hw]

/-- An interrupt leaves `GIE` as it was at entry (R299). -/
@[simp] theorem takeInterrupt_gie (h : State → State) (s : State) : (takeInterrupt h s).gie = s.gie := rfl

/-- A masked micro-step leaves `GIE` as it was (R133, R232). -/
@[simp] theorem masked_gie (a : State → State) (s : State) : (masked a s).gie = s.gie := rfl

/-- CLEAR_OVERFLOW's masked micro-step changes the status word alone. -/
theorem masked_clearOverflow (s : State) :
    masked State.clearOverflow s = { s with status := clearRxovf s.status } := rfl

/-- What the test-and-set can do: with the lock free it takes it and says so; with the lock held it changes
nothing and says so (R133). -/
theorem testAndSet_tx (s : State) :
    testAndSet .tx s =
      if s.txf.lock then (s, false) else ({ s with txf := { s.txf with lock := true } }, true) := by
  unfold testAndSet masked
  cases h : s.txf.lock <;> simp [h, State.setFifo, State.fifo]

/-- `append` adds the byte at `TOP` below capacity, and is FULL otherwise (R135). -/
theorem fifoAppend_cases (cap : Nat) (f : Fifo) (b : Byte) :
    (f.top.toNat < cap ∧ fifoAppend cap f b = some { fifoWrite f f.top.toNat b with top := f.top + 1 }) ∨
    (cap ≤ f.top.toNat ∧ fifoAppend cap f b = none) := by
  unfold fifoAppend
  split
  · exact .inl ⟨by assumption, rfl⟩
  · exact .inr ⟨by omega, rfl⟩

@[simp] theorem compactFront_lock (f : Fifo) : (compactFront f).lock = f.lock := by
  unfold compactFront; split <;> rfl

@[simp] theorem compactFront_dirty (f : Fifo) : (compactFront f).dirty = f.dirty := by
  unfold compactFront; split <;> rfl

theorem compactFront_top (f : Fifo) : (compactFront f).top = if f.top = 0 then 0 else f.top - 1 := by
  unfold compactFront; split <;> simp_all

/-- `compact_front` reads neither the lock nor the dirty flag. -/
theorem compactFront_with (f : Fifo) (l d : Bool) :
    compactFront { f with lock := l, dirty := d } = { compactFront f with lock := l, dirty := d } := by
  unfold compactFront; split <;> rfl

/-- The service compacts a dirty, unlocked FIFO and clears `DIRTY`; any other FIFO it leaves (R138). -/
theorem serviceFifo_cases (f : Fifo) :
    (f.dirty = true ∧ f.lock = false ∧ serviceFifo f = { compactFront f with lock := false, dirty := false }) ∨
    ((f.dirty = false ∨ f.lock = true) ∧ serviceFifo f = f) := by
  obtain ⟨d, n, l, y⟩ := f
  cases y <;> cases l <;> simp [serviceFifo, tryLock, unlock]
  simp only [compactFront]
  split <;> simp

/-- The compaction attempt of the TX engine (R195, R196). -/
theorem txCompact_cases (locked : TxState) (s : State) :
    (s.txf.lock = false ∧
      txCompact locked s = { s with txf := unlock (compactFront { s.txf with lock := true }) }.setTxState .idle) ∨
    (s.txf.lock = true ∧ txCompact locked s = s.setTxState locked) := by
  unfold txCompact tryLock
  cases h : s.txf.lock <;> simp

@[simp] theorem rxState_setRxState (s : State) (x : RxState) : (s.setRxState x).rxState = x := by
  simp [State.rxState]

@[simp] theorem txState_setRxState (s : State) (x : RxState) : (s.setRxState x).txState = s.txState := by
  simp [State.txState]

@[simp] theorem txState_setTxState (s : State) (x : TxState) : (s.setTxState x).txState = x := by
  simp [State.txState]

@[simp] theorem rxState_setTxState (s : State) (x : TxState) : (s.setTxState x).rxState = s.rxState := by
  simp [State.rxState]

@[simp] theorem rxovf_setRxState (s : State) (x : RxState) : (s.setRxState x).rxovf = s.rxovf := by
  simp [State.rxovf]

@[simp] theorem rxovf_setTxState (s : State) (x : TxState) : (s.setTxState x).rxovf = s.rxovf := by
  simp [State.rxovf]

@[simp] theorem notinit_setRxState (s : State) (x : RxState) : (s.setRxState x).notinit = s.notinit := by
  simp [State.notinit]

@[simp] theorem notinit_setTxState (s : State) (x : TxState) : (s.setTxState x).notinit = s.notinit := by
  simp [State.notinit]

end Sys2Proof.Laws
end

