-- ==== Sys2Proof/Laws/PerInstr.lean ====
section
/-! SUPPORT. The layout of every operation's word (30_encoding.md R80 to R82): `RSV` is 0, `OPC` and `OPND` are
the operation's, and `OPC` says the port. -/

namespace Sys2Proof.Laws.WordLayout

/-- The fields of the word of `i`. -/
def Statement (i : Instr) : Prop :=
  rsvOf (encode i) = 0 ∧ opcOf (encode i) = i.opcode ∧ opndOf (encode i) = i.operand ∧
    (encode i).getLsbD 31 = !i.isCommand

/-- A packed word gives its fields back. -/
theorem packWord_fields (opc : BitVec 8) (opnd : BitVec 16) :
    rsvOf (packWord opc opnd) = 0 ∧ opcOf (packWord opc opnd) = opc ∧ opndOf (packWord opc opnd) = opnd ∧
      (packWord opc opnd).getLsbD 31 = opc.getLsbD 7 := by
  refine ⟨?_, ?_, ?_, ?_⟩
  · apply BitVec.eq_of_getLsbD_eq; intro k hk
    simp only [rsvOf, packWord, BitVec.getLsbD_extractLsb', BitVec.getLsbD_append]
    interval_cases k <;> simp
  · apply BitVec.eq_of_getLsbD_eq; intro k hk
    simp only [opcOf, packWord, BitVec.getLsbD_extractLsb', BitVec.getLsbD_append]
    interval_cases k <;> simp
  · apply BitVec.eq_of_getLsbD_eq; intro k hk
    simp only [opndOf, packWord, BitVec.getLsbD_extractLsb', BitVec.getLsbD_append]
    interval_cases k <;> simp
  · rw [packWord, BitVec.getLsbD_append, BitVec.getLsbD_append]
    simp

theorem of_opcode (i : Instr) (h : i.opcode.getLsbD 7 = !i.isCommand) : Statement i := by
  obtain ⟨a, b, c, d⟩ := packWord_fields i.opcode i.operand
  exact ⟨a, b, c, d.trans h⟩

theorem nop : Statement .nop := of_opcode _ (by simp [Instr.opcode, Instr.isCommand])
theorem initialise (idx : BitVec 3) : Statement (.initialise idx) := of_opcode _ (by simp [Instr.opcode, Instr.isCommand])
theorem putChar (byte : Byte) : Statement (.putChar byte) := of_opcode _ (by simp [Instr.opcode, Instr.isCommand])
theorem dataPending : Statement .dataPending := of_opcode _ (by simp [Instr.opcode, Instr.isCommand])
theorem getChar : Statement .getChar := of_opcode _ (by simp [Instr.opcode, Instr.isCommand])
theorem enableReceive : Statement .enableReceive := of_opcode _ (by simp [Instr.opcode, Instr.isCommand])
theorem disableReceive : Statement .disableReceive := of_opcode _ (by simp [Instr.opcode, Instr.isCommand])
theorem readStatus : Statement .readStatus := of_opcode _ (by simp [Instr.opcode, Instr.isCommand])
theorem clearOverflow : Statement .clearOverflow := of_opcode _ (by simp [Instr.opcode, Instr.isCommand])
theorem tick (lvl : Bool) : Statement (.tick lvl) := of_opcode _ (by simp [Instr.opcode, Instr.isCommand])
theorem edge (cnt : BitVec 16) : Statement (.edge cnt) := of_opcode _ (by simp [Instr.opcode, Instr.isCommand])
theorem edgeFire (cnt : BitVec 16) : Statement (.edgeFire cnt) := of_opcode _ (by simp [Instr.opcode, Instr.isCommand])

end Sys2Proof.Laws.WordLayout
end

