-- ==== Sys2Proof/Laws/Pseudo.lean ====
section
/-! SUPPORT. What waiting for a result can answer, said once. -/

namespace Sys2Proof.Laws

open Sys2Proof.Machine

/-- The word answered is result number `n` of the state answered: never an older one, and none only where that result
is still to come. -/
theorem awaitResult_word (n : Nat) : ∀ {fuel : Nat} {s t : State} {w : Option Word},
    awaitResult n fuel s = .next (t, w) → w = t.results[n]?
  | 0, s, t, w, h => by
    simp only [awaitResult] at h
    cases h
    rfl
  | fuel + 1, s, t, w, h => by
    simp only [awaitResult] at h
    split at h
    · rename_i hw
      cases h
      exact hw.symm
    · split at h
      · exact awaitResult_word n h
      · cases h
      · cases h

/-- SEND answers a count only where its first PUT_CHAR delivered a result, and counts it only where that is not 0. -/
theorem send_cons_some {fuel k : Nat} {b : Byte} {rest : List Byte} {s t : State}
    (h : send fuel (b :: rest) s = (.next t, some k)) :
    ∃ u r, issueAndWait fuel (.putChar b) s = .next (u, some r) ∧
      ((r = resultWord 0 ∧ t = u ∧ k = 0) ∨
       (r ≠ resultWord 0 ∧ ∃ j, send fuel rest u = (.next t, some j) ∧ k = j + 1)) := by
  simp only [send] at h
  split at h
  · simp at h
  · rename_i u r hu
    refine ⟨u, r, hu, ?_⟩
    split at h
    · rename_i hr
      simp only [Prod.mk.injEq, Host.Outcome.next.injEq, Option.some.injEq] at h
      exact .inl ⟨hr, h.1.symm, h.2.symm⟩
    · rename_i hr
      simp only [Prod.mk.injEq, Option.map_eq_some_iff] at h
      obtain ⟨h1, j, h2, h3⟩ := h
      exact .inr ⟨hr, j, Prod.ext h1 h2, h3.symm⟩
  · simp at h
  · simp at h

end Sys2Proof.Laws
end

