-- ==== Sys2Proof/Laws/Step.lean ====
section
/-! SUPPORT. What a step can do, said once. -/

namespace Sys2Proof.Laws

open Sys2Proof.Machine

/-- A foreground turn that settles an operation runs the command in flight, or one decoded from the port. -/
theorem fetchForeground_run {s t : State} {i : Instr} (h : fetchForeground s = .run i t) :
    (s.fgOp = some i ∧ t = s) ∨
    (∃ c rest, s.fgOp = none ∧ s.cmdPort = c :: rest ∧ decodeCommand c.word = .ok i ∧
      t = { s with cmdPort := rest, storageOk := c.storageOk }) := by
  unfold fetchForeground at h
  split at h
  · rename_i j hj
    cases h
    exact .inl ⟨hj, rfl⟩
  · rename_i ho
    split at h
    · cases h
    · rename_i c rest hc
      simp only at h
      split at h
      · rename_i j hj
        cases h
        exact .inr ⟨c, rest, ho, hc, hj, rfl⟩
      · split at h <;> cases h

/-- A foreground turn that settles a next state raised `F_ILLEGAL_COMMAND` for a word it took. -/
theorem fetchForeground_done {s t : State} (h : fetchForeground s = .done (.next t)) :
    ∃ c rest e, s.fgOp = none ∧ s.cmdPort = c :: rest ∧ decodeCommand c.word = .error e ∧
      s.edgeFireReady = false ∧
      t = raiseFault .illegalCommand { s with cmdPort := rest, storageOk := c.storageOk } := by
  unfold fetchForeground at h
  split at h
  · cases h
  · rename_i ho
    split at h
    · cases h
    · rename_i c rest hc
      simp only at h
      split at h
      · cases h
      · rename_i e he
        split at h
        · cases h
        · rename_i hr
          cases h
          exact ⟨c, rest, e, ho, hc, he, by simpa using hr, rfl⟩

/-- A step that answers a next state ran an operation in a state that differs from `s` in the environment's
lists and draw alone, or raised `F_ILLEGAL_COMMAND` in such a state. -/
theorem step_cases {s t : State} (h : step s = .next t) :
    s.fault = none ∧ s.cfg.valid = true ∧
      ∃ script port draw,
        let u := { s with script := script, cmdPort := port, storageOk := draw }
        (∃ i, exec i u = .next t) ∨ (u.fgOp = none ∧ t = raiseFault .illegalCommand u) := by
  have hf : s.fault = none := by
    cases hc : s.fault with
    | none => rfl
    | some c => simp [step, fetch, hc] at h
  have hv : s.cfg.valid = true := by
    cases hc : s.cfg.valid with
    | true => rfl
    | false => simp [step, fetch, hf, hc] at h
  refine ⟨hf, hv, ?_⟩
  have fore : ∀ u : State, u = { s with script := u.script } →
      (match fetchForeground u with
        | .run i t => exec i t
        | .done o => o) = .next t →
      ∃ script port draw,
        let u := { s with script := script, cmdPort := port, storageOk := draw }
        (∃ i, exec i u = .next t) ∨ (u.fgOp = none ∧ t = raiseFault .illegalCommand u) := by
    intro u hu hx
    split at hx
    · rename_i i w hr
      rcases fetchForeground_run hr with ⟨_, hw⟩ | ⟨c, rest, _, _, _, hw⟩
      · refine ⟨u.script, s.cmdPort, s.storageOk, .inl ⟨i, ?_⟩⟩
        rw [hw, hu] at hx
        exact hx
      · refine ⟨u.script, rest, c.storageOk, .inl ⟨i, ?_⟩⟩
        rw [hw, hu] at hx
        exact hx
    · rename_i o hr
      subst hx
      obtain ⟨c, rest, e, ho, _, _, _, ht⟩ := fetchForeground_done hr
      refine ⟨u.script, rest, c.storageOk, .inr ⟨?_, ?_⟩⟩
      · rw [hu] at ho; exact ho
      · rw [ht, hu]
  have h' := h
  simp only [step, fetch] at h'
  rw [hf] at h'
  simp only [hv, Bool.not_true, Bool.false_eq_true, if_false] at h'
  cases hs : s.script with
  | nil =>
    rw [hs] at h'
    exact fore s rfl h'
  | cons a rest =>
    rw [hs] at h'
    cases a with
    | foreground => exact fore { s with script := rest } rfl (by rw [hf] at *; exact h')
    | event w =>
      simp only [fetchEvent] at h'
      split at h'
      · rename_i i u hr
        split at hr
        · cases hr
          refine ⟨rest, s.cmdPort, s.storageOk, .inl ⟨i, ?_⟩⟩
          simp only [hf]
          exact h'
        · cases hr
      · rename_i o hr
        split at hr
        · cases hr
        · cases hr; cases h'

end Sys2Proof.Laws
end

