-- ==== Sys2Proof/Tests/Slice0.lean ====
section
/-! SUPPORT. Tests of the definitions against values the spec writes out (95_test_vectors.md; the row is named), the
smoke tests of WellFormed, and for every statement that has hypotheses a witness: a concrete state and operands
that meet them. -/

namespace Sys2Proof.Tests

open Sys2Proof.Machine Sys2Proof.Safety

/-! Helpers. -/

/-- The next state of an outcome, if it has one. -/
def nextOf : Host.Outcome State Fault Refusal → Option State
  | .next t => some t
  | .fault _ => none
  | .refused _ => none

/-- One field of the next state of an operation. -/
def after {α : Type} (i : Instr) (s : State) (f : State → α) : Option α := (nextOf (exec i s)).map f

/-- "After INITIALISE 2" under TC (95_test_vectors.md). -/
def ready : State := initialiseEffects 2 ⟨1, 103, 52⟩ State.reset

/-- TC with edges latched. -/
def latchTc : Config := { Config.tc with edgeLatch := .latched }

/-- `ready` with `RXF` holding 0x11 and 0x22 and a pop outstanding or not. -/
def withRx (dirty : Bool) : State := { ready with rxf := ⟨[(0, 0x11), (1, 0x22)], 2, false, dirty⟩ }

/-- `ready` with 0x55 in `TXF` and the next tick an acting tick of the TX engine. -/
def withTx : State := { ready with txf := ⟨[(0, 0x55)], 1, false, false⟩, txPhase := true }

/-- `ready` with PUT_CHAR 0x77 in flight at a micro-step, over `n` bytes already in `TXF`. -/
def putting (l : FgStep) (n : BitVec 8) (lock : Bool) : State :=
  { ready with
    txf := ⟨[(0, 0x55), (1, 0x66)], n, lock, false⟩
    fgOp := some (.putChar 0x77), fgStep := l, fgT := n }

/-- `ready` receiving: a byte of `n` bits captured so far, the phase toggle at `phase`. -/
def receivingAt (shift : BitVec 8) (n : BitVec 4) (phase : Bool) : State :=
  { ready with status := 0x02, rxShift := shift, rxBitcnt := n, rxPhase := phase, edgeIe := false }

/-- `ready` sending 0x55 in the TX state of `st`, `n` bits sent, the next tick acting. -/
def sendingAt (st : BitVec 8) (n : BitVec 4) (lock : Bool) : State :=
  { withTx with status := st, txShift := 0x55, txBitcnt := n, txf := ⟨[(0, 0x55)], 1, lock, false⟩ }

/-- Counts an EDGE may deliver in `ready`. -/
def countsAdmitted (cs : List (BitVec 16)) : Bool :=
  cs.all (fun c => (Instr.edge c).wellFormed ready.cfg && decide (c.toNat ≤ ready.tmrTop.toNat))

/-! WellFormed: an ill-formed term for each check. -/

theorem test_wf_rate_not_enabled : (Instr.initialise 0).wellFormed Config.tc = false := by decide
theorem test_wf_rate_seven : (Instr.initialise 7).wellFormed Config.tc = false := by decide
theorem test_wf_count_too_wide : (Instr.edge 0x100).wellFormed Config.tc = false := by decide
theorem test_wf_fire_without_latch : (Instr.edgeFire 60).wellFormed Config.tc = false := by decide
theorem test_wf_fire_count_too_wide : (Instr.edgeFire 0x100).wellFormed latchTc = false := by decide
theorem test_wf_good : (Instr.initialise 2).wellFormed Config.tc = true ∧
    (Instr.edge 0xFF).wellFormed Config.tc = true ∧ (Instr.edgeFire 60).wellFormed latchTc = true ∧
    (Instr.edge 0x100).wellFormed { Config.tc with width := .w16 } = true := by decide

/-! Decoding: words of 95_test_vectors.md 2.2, one for every constructor, and the illegal ones. -/

theorem test_decode_nop : decodeCommand 0x00000000 = .ok .nop := by decide
theorem test_decode_initialise : decodeCommand 0x01000002 = .ok (.initialise 2) := by decide
theorem test_decode_put_char : decodeCommand 0x020000FF = .ok (.putChar 0xFF) := by decide
theorem test_decode_data_pending : decodeCommand 0x03000000 = .ok .dataPending := by decide
theorem test_decode_get_char : decodeCommand 0x04000000 = .ok .getChar := by decide
theorem test_decode_enable_receive : decodeCommand 0x05000000 = .ok .enableReceive := by decide
theorem test_decode_disable_receive : decodeCommand 0x06000000 = .ok .disableReceive := by decide
theorem test_decode_read_status : decodeCommand 0x07000000 = .ok .readStatus := by decide
theorem test_decode_clear_overflow : decodeCommand 0x08000000 = .ok .clearOverflow := by decide
theorem test_decode_tick : decodeEvent 0x80000000 = .ok (.tick false) := by decide
theorem test_decode_edge : decodeEvent 0x81000067 = .ok (.edge 103) := by decide
theorem test_decode_edge_fire : decodeEvent 0x8200003C = .ok (.edgeFire 60) := by decide
theorem test_decode_operand_bit : decodeCommand 0x01000008 = .error .operandBits := by decide
theorem test_decode_format_n_operand : decodeCommand 0x03000001 = .error .operandBits := by decide
theorem test_decode_reserved_opcodes : decodeCommand 0x09000000 = .error .reservedOpcode ∧
    decodeCommand 0x7F000000 = .error .reservedOpcode ∧ decodeEvent 0x83000000 = .error .reservedOpcode := by
  decide
theorem test_decode_reserved_field : decodeCommand 0x02010055 = .error .reservedField := by decide
theorem test_decode_wrong_port : decodeCommand 0x80000001 = .error .wrongPort ∧
    decodeEvent 0x07000000 = .error .wrongPort := by decide
theorem test_decode_truncated : decodeBytes [0x55, 0x00, 0x00] = .error .truncated := by decide
/-- R95: "`OPND[7:0]` first, `OPC` last". -/
theorem test_decode_bytes : decodeBytes [0x55, 0x00, 0x00, 0x02, 0xAA] = .ok (.putChar 0x55, [0xAA]) := by
  decide
/-- R90's examples. -/
theorem test_assemble :
    assembleLine ['P', 'U', 'T', '_', 'C', 'H', 'A', 'R', ' ', '0', 'x', '5', '5'] = some 0x02000055 ∧
    assembleLine ['E', 'D', 'G', 'E', ' ', '1', '0', ' ', ';', 'c'] = some 0x8100000A := by decide

/-! Values of 95_test_vectors.md 2.1, 2.3. -/

theorem test_timer_table : [2, 3, 4].map (timerSetting Config.tc) =
    [some ⟨1, 103, 52⟩, some ⟨1, 51, 26⟩, some ⟨1, 25, 13⟩] := by decide
/-- BC-7 where the enumeration is another one: 2400 baud is index 1. -/
theorem test_other_rates :
    timerSetting { Config.tc with rates := [1200, 2400], ratesEnabled := [1] } 1 = some ⟨2, 51, 26⟩ := by decide
/-- R226: a PUT_CHAR that has no result in its steps is not counted, whatever result is the last one. -/
theorem test_send_unfinished :
    (send 1 [0x41] { ready with results := [1], script := [.event 0x80000001] }).2 = none := by decide
/-- FP-6. -/
theorem test_append_full : fifoAppend 2 ⟨[(0, 0x11), (1, 0x22)], 2, false, false⟩ 0x33 = none := by decide
/-- FP-7. -/
theorem test_compact : compactFront ⟨[(0, 0x11), (1, 0x22), (2, 0x33)], 3, true, false⟩ =
    ⟨[(0, 0x22), (1, 0x33), (2, 0x33)], 2, true, false⟩ := by decide
/-- FP-10. -/
theorem test_service : serviceFifo ⟨[(0, 0x11), (1, 0x22)], 2, false, true⟩ =
    ⟨[(0, 0x22), (1, 0x22)], 1, false, false⟩ := by decide
/-- RX-1: the TICK levels of 0xA3. -/
theorem test_frame_levels : (frameLevels 3 0xA3 true).map Bool.toNat =
    [0, 0, 1, 1, 1, 0, 0, 0, 0, 0, 0, 1, 1, 0, 0, 1, 1, 1, 1] := by decide

/-! One step of each operation. -/

/-- FC-18. -/
theorem test_nop : after .nop State.reset (·.results) = some [0x00000000] := by decide
/-- FC-18. -/
theorem test_read_status : after .readStatus State.reset (·.results) = some [0x00000080] := by decide
/-- FC-1. -/
theorem test_initialise_no_storage : exec (.initialise 2) { State.reset with storageOk := false } =
    .next { State.reset with storageOk := false, results := [2] } := rfl
/-- FC-2. -/
theorem test_initialise : after (.initialise 2) State.reset
    (fun t => (t.results, t.status, t.tmrPs, t.tmrTop, t.thresh, t.gie)) =
    some ([0], 0x00, 1, 103, 52, true) := by decide
/-- FC-5, its byte store. -/
theorem test_put_char_store : after (.putChar 0x77) (putting .pc4 2 true)
    (fun t => (t.txf.data, t.txf.top)) = some ([(0, 0x55), (1, 0x66), (2, 0x77)], 2) := by decide
/-- FC-19. -/
theorem test_put_char_before_setup : exec (.putChar 0x41) State.reset =
    .next { State.reset with fault := some .notInitialised } := rfl
/-- FC-10. -/
theorem test_data_pending_empty : after .dataPending ready (·.results) = some [0] := by decide
/-- FC-12: DP2 is held. -/
theorem test_data_pending_held :
    after .dataPending { withRx true with fgOp := some .dataPending, fgStep := .dp2 } (·.fgStep) =
      some .dp2 := by decide
/-- FC-8. -/
theorem test_get_char_empty :
    after .getChar { ready with fgOp := some .getChar, fgStep := .gc2 } (·.fault) =
      some (some .getcharEmpty) := by decide
/-- FC-7, the first GC3. -/
theorem test_get_char_return :
    after .getChar { withRx false with fgOp := some .getChar, fgStep := .gc3, fgV := 0x11 }
      (fun t => (t.results, t.rxf.dirty, t.rxf.top)) = some ([0x11], true, 2) := by decide
/-- FC-13. -/
theorem test_enable_receive : after .enableReceive { ready with edgeIe := false }
    (fun t => (t.edgeIe, t.results, t.fgStep)) = some (true, [0], .er1) := by decide
/-- FC-14. -/
theorem test_disable_receive : after .disableReceive ready
    (fun t => (t.edgeIe, t.results, t.fgStep)) = some (false, [0], .dr1) := by decide
/-- FC-16. -/
theorem test_clear_overflow : after .clearOverflow { ready with status := 0x19 }
    (fun t => (t.status, t.results, t.gie)) = some (0x09, [0], true) := by decide
/-- EV-1. -/
theorem test_tick_idle : exec (.tick true) ready = .next { ready with txPhase := true } := rfl
/-- RX-1, TICK 5. -/
theorem test_tick_data_bit : after (.tick true) (receivingAt 0x01 1 true)
    (fun t => (t.rxShift, t.rxBitcnt, t.rxPhase)) = some (0x03, 2, false) := by decide
/-- EH-3: the count equals the threshold. -/
theorem test_edge_at_threshold : after (.edge 52) ready
    (fun t => (t.rxCd, t.status, t.edgeIe)) = some (3, 0x01, false) := by decide
/-- EH-2. -/
theorem test_edge_below_threshold : after (.edge 51) ready (·.rxCd) = some 2 := by decide
/-- EH-12. -/
theorem test_edge_fire : after (.edgeFire 60) { ready with cfg := latchTc, edgePend := true }
    (fun t => (t.edgePend, t.rxCd, t.rxState, t.edgeIe)) =
    some (false, 3, .armedCountdown, false) := by decide
/-- DV-6. -/
theorem test_edge_count_above_top : exec (.edge 104) ready = .refused .countAboveTop := rfl
/-- MF-1. -/
theorem test_illegal_word_faults :
    (nextOf (step { ready with cmdPort := [⟨0x09000000, true⟩] })).map (·.fault) =
      some (some .illegalCommand) := by decide

/-! Witnesses: for every statement with hypotheses, a state and operands that meet them; for several clauses, one
each. A witness is named after its statement. -/

/-- Facts of a machine that has been initialised and whose foreground is idle, from values that are decided. -/
theorem inv_idle (s : State) (hb : s.cfg.valid = true) (hidle : s.fgOp = none)
    (hmem : s.status &&& 0x60 = 0 ∧ (s.cfg.edgeLatch = .none → s.edgePend = false) ∧
      s.rxf.data.wf = true ∧ s.txf.data.wf = true)
    (hrx : ∀ a, s.cfg.capRx ≤ a → s.rxf.data.read a = Memory.unlisted)
    (htx : ∀ a, s.cfg.capTx ≤ a → s.txf.data.read a = Memory.unlisted)
    (h1 : s.notinit = false ∧ s.gie = true ∧ s.tmrRun = true ∧ s.tickIe = true ∧ s.txdOe = true ∧
      s.rxState ≠ .reserved ∧ s.rxf.top.toNat ≤ s.cfg.capRx ∧ s.txf.top.toNat ≤ s.cfg.capTx ∧
      s.rxf.lock = false ∧ s.txf.lock = false ∧ s.txf.dirty = false)
    (h2 : s.rxState = .idle ∧ s.txState = .idle ∧ s.rxBitcnt.toNat ≤ 8 ∧ s.txBitcnt.toNat ≤ 8 ∧ s.txd = true ∧
      (s.rxf.dirty = true → 1 ≤ s.rxf.top.toNat))
    (ht : timerSetting s.cfg s.rateSel.toNat = some ⟨s.tmrPs.toNat, s.tmrTop.toNat, s.thresh.toNat⟩) :
    Started s ∧ Inv s := by
  obtain ⟨a1, a2, a3, a4, a5, a6, a7, a8, a9, a10, a11⟩ := h1
  obtain ⟨b1, b2, b3, b4, b5, b6⟩ := h2
  have hs : Started s :=
    { notinit := a1, gie := a2, tmrRun := a3, tickIe := a4, txdOe := a5, rxs := a6, rxTop := a7, txTop := a8
      rxLock := a9, txLock := by simp [holdsTxLock, hidle, a10], txDirty := a11
      rxCd := fun _ h => by rw [b1] at h; cases h
      rxBitcnt := fun h => by rw [b1] at h; cases h
      rxBitcntLegal := b3
      txBitcnt := fun h => by rw [b2] at h; cases h
      txBitcntStart := fun h => by rw [b2] at h; cases h
      txBitcntLegal := b4
      txPending := fun h => absurd b2 h
      txFront := fun h => absurd b2 h
      txdHigh := fun _ => b5
      txdStart := fun h => by rw [b2] at h; cases h
      txdData := fun h => by rw [b2] at h; cases h
      rxDirty := b6
      timer := ⟨_, ht, rfl, rfl, rfl⟩
      step := fun i h => by rw [hidle] at h; cases h
      putChar := fun b h => by rw [hidle] at h; cases h
      getChar := fun h => by rw [hidle] at h; cases h
      getCharByte := fun h => by rw [hidle] at h; cases h }
  exact ⟨hs, hb, hmem.1, hmem.2.1, hmem.2.2.1, hmem.2.2.2, hrx, htx, .inr hs⟩

theorem ready_inv : Started ready ∧ Inv ready :=
  inv_idle ready (by decide) rfl (by decide) (fun _ _ => rfl) (fun _ _ => rfl) (by decide) (by decide) (by decide)

/-- A storage that lists no slot from `n` on reads as unlisted there. -/
theorem reads_unlisted : ∀ (m : Memory) (n : Nat), m.all (fun c => decide (c.1 < n)) = true →
    ∀ a, n ≤ a → m.read a = Memory.unlisted
  | [], _, _, _, _ => rfl
  | (x, b) :: rest, n, h, a, ha => by
    simp only [List.all_cons, Bool.and_eq_true, decide_eq_true_eq] at h
    have hx : a ≠ x := by omega
    simp only [Memory.read, hx, if_false]
    exact reads_unlisted rest n h.2 a ha

theorem withRx_inv (d : Bool) : Started (withRx d) ∧ Inv (withRx d) :=
  inv_idle (withRx d) (by cases d <;> decide) rfl (by cases d <;> decide)
    (reads_unlisted _ _ (by cases d <;> decide)) (fun _ _ => rfl) (by cases d <;> decide)
    (by cases d <;> decide) (by cases d <;> decide)

theorem withTx_inv : Started withTx ∧ Inv withTx :=
  inv_idle withTx (by decide) rfl (by decide) (fun _ _ => rfl) (reads_unlisted _ _ (by decide))
    (by decide) (by decide) (by decide)

theorem witness_EncodeAfterDecode : decodeWord 0x020000FF = .ok (.putChar 0xFF) := by decide

/-- An event, a command in flight, and a command on the port. -/
theorem witness_StepRunsDecodedOperation :
    (({ ready with script := [.event 0x80000001] } : State).fault = none ∧ ready.cfg.valid = true ∧
      decodeEvent 0x80000001 = .ok (.tick true)) ∧
    (foregroundTurn (putting .pc3 2 true) [] ∧ (putting .pc3 2 true).fgOp = some (.putChar 0x77) ∧
      (putting .pc3 2 true).fault = none ∧ (putting .pc3 2 true).cfg.valid = true) ∧
    (foregroundTurn { ready with script := [.foreground], cmdPort := [⟨0x02000055, true⟩] } [] ∧
      ready.fgOp = none ∧ decodeCommand 0x02000055 = .ok (.putChar 0x55)) :=
  ⟨by decide, ⟨.inl ⟨rfl, rfl⟩, rfl, rfl, by decide⟩, .inr rfl, rfl, by decide⟩

theorem witness_OfferedWordRunsNext : State.reset.fault = none ∧ State.reset.cfg.valid = true := by decide

theorem witness_FaultStopsEveryAgent :
    State.reset.fault = none ∧ after .getChar State.reset (·.fault) = some (some .notInitialised) ∧
    ({ State.reset with fault := some .getcharEmpty } : State).fault = some .getcharEmpty := by decide

theorem witness_NoMachineWithoutPrescaler :
    (State.resetOf { Config.tc with ratesEnabled := [0, 1, 2, 3, 4, 5, 6] }).fault = none ∧
    prescalerSel { Config.tc with ratesEnabled := [0, 1, 2, 3, 4, 5, 6] } = none := by decide

/-- DE-16 and DE-3. -/
theorem witness_IllegalCommandWordFaults :
    let s (w : Word) : State := { ready with cmdPort := [⟨w, true⟩] }
    (∀ w, (s w).fault = none ∧ (s w).cfg.valid = true ∧ (s w).edgeFireReady = false ∧ (s w).fgOp = none ∧
      foregroundTurn (s w) [] ∧ (s w).cmdPort = ⟨w, true⟩ :: []) ∧
    decodeCommand 0x09000000 = .error .reservedOpcode ∧
    decodeCommand 0x01000000 = .ok (.initialise 0) ∧ (Instr.initialise 0).wellFormed ready.cfg = false :=
  ⟨fun _ => ⟨rfl, show Config.tc.valid = true by decide, rfl, rfl, .inl ⟨rfl, rfl⟩, rfl⟩, by decide, by decide,
    by decide⟩

theorem witness_LinkCommandsBeforeSetupFault :
    State.reset.fault = none ∧ State.reset.edgeFireReady = false ∧ State.reset.fgOp = none ∧
    State.reset.notinit = true ∧ (nextOf (exec .nop State.reset)).isSome = true ∧
    (nextOf (exec (.initialise 2) State.reset)).isSome = true := by decide

theorem witness_UnspecifiedResetValuesUnobserved :
    (∀ x : Bool, Unstarted { State.reset with txd := x, thresh := 7, rxf := ⟨[(0, 1)], 9, true, true⟩ }) ∧
    Config.tc.valid = true ∧ Config.tc.rateEnabled 2 = true :=
  ⟨fun _ => ⟨rfl, rfl, rfl, rfl, rfl, rfl, rfl⟩, by decide, by decide⟩

theorem witness_ResetMeetsInvariant : Config.tc.valid = true := by decide

/-- States of the invariant that step: one with an event to take, one with a command, and reset with one. -/
theorem witness_StepKeepsInvariant :
    let e : State := { withTx with script := [.event 0x80000001] }
    let c : State := { ready with cmdPort := [⟨0x02000055, true⟩] }
    let r : State := { State.reset with cmdPort := [⟨0x01000002, true⟩] }
    (Inv e ∧ (nextOf (step e)).isSome = true) ∧ (Inv c ∧ (nextOf (step c)).isSome = true) ∧
    (Inv r ∧ (nextOf (step r)).isSome = true) :=
  ⟨⟨(inv_idle _ (by decide) rfl (by decide) (fun _ _ => rfl) (reads_unlisted _ _ (by decide))
      (by decide) (by decide) (by decide)).2, by decide⟩,
    ⟨(inv_idle _ (by decide) rfl (by decide) (fun _ _ => rfl) (fun _ _ => rfl) (by decide) (by decide)
      (by decide)).2, by decide⟩,
    ⟨⟨by decide, by decide, fun _ => rfl, rfl, rfl, fun _ _ => rfl, fun _ _ => rfl,
      .inl ⟨rfl, rfl, rfl, rfl, rfl, rfl, rfl⟩⟩, by decide⟩⟩

theorem witness_LegalValuesNeverLeft : Inv ready ∧ Inv (withRx false) := ⟨ready_inv.2, (withRx_inv false).2⟩

theorem witness_PrescalerIsSmallestValid : prescalerSel Config.tc = some 1 ∧
    prescalerSel { Config.tc with ratesEnabled := [0, 6] } = none := by decide

/-- A rate whose threshold comes from the formula, and one from the table. -/
theorem witness_TickRateWithinBound : timerSetting Config.tc 2 = some ⟨1, 103, 52⟩ ∧
    Config.tc.threshTable.lookup 2 = none ∧
    timerSetting { Config.tc with threshTable := [(2, 104)] } 2 = some ⟨1, 103, 104⟩ := by decide

theorem canTake_reset : canTake (.initialise 2) State.reset := ⟨rfl, rfl, rfl, rfl, rfl⟩

theorem witness_InitialiseSucceeds : canTake (.initialise 2) State.reset ∧ State.reset.cfg.valid = true ∧
    State.reset.tmrRun = false ∧ State.reset.gie = false ∧ State.reset.storageOk = true :=
  ⟨canTake_reset, by decide, rfl, rfl, rfl⟩

theorem witness_InitialiseFailureChangesNothing :
    (canTake (.initialise 3) ready ∧ ready.tmrRun = true ∧ Inv ready) ∧
    (canTake (.initialise 2) { State.reset with gie := true }) ∧
    (canTake (.initialise 4) { State.reset with storageOk := false }) :=
  ⟨⟨⟨rfl, rfl, rfl, rfl, rfl⟩, rfl, ready_inv.2⟩, ⟨rfl, rfl, rfl, rfl, rfl⟩, ⟨rfl, rfl, rfl, rfl, rfl⟩⟩

theorem witness_NopReturnsZero :
    State.reset.fault = none ∧ State.reset.edgeFireReady = false ∧ State.reset.fgOp = none := by decide

/-- Each micro-step, with the lock free and held, with room (the last slot) and full. -/
theorem witness_PutCharMicroSteps :
    canTake (.putChar 0x77) ready ∧ inFlight (.putChar 0x77) .pc1 (putting .pc1 2 true) ∧
    inFlight (.putChar 0x77) .pc2 (putting .pc2 2 false) ∧ inFlight (.putChar 0x77) .pc2 (putting .pc2 2 true) ∧
    (inFlight (.putChar 0x77) .pc3 (putting .pc3 2 true) ∧ (2 : BitVec 8).toNat < ready.cfg.capTx) ∧
    (inFlight (.putChar 0x77) .pc3 (putting .pc3 3 true) ∧ ready.cfg.capTx ≤ (3 : BitVec 8).toNat) ∧
    inFlight (.putChar 0x77) .pc4 (putting .pc4 2 true) ∧ inFlight (.putChar 0x77) .pc5 (putting .pc5 2 true) ∧
    inFlight (.putChar 0x77) .pc6 (putting .pc6 2 true) :=
  ⟨⟨rfl, rfl, rfl, rfl, rfl⟩, ⟨rfl, rfl, rfl, rfl⟩, ⟨rfl, rfl, rfl, rfl⟩, ⟨rfl, rfl, rfl, rfl⟩,
    ⟨⟨rfl, rfl, rfl, rfl⟩, by decide⟩, ⟨⟨rfl, rfl, rfl, rfl⟩, by decide⟩, ⟨rfl, rfl, rfl, rfl⟩,
    ⟨rfl, rfl, rfl, rfl⟩, ⟨rfl, rfl, rfl, rfl⟩⟩

theorem witness_PutCharAcceptsOrRejects :
    (canTake (.putChar 0x55) ready ∧ ready.txf.lock = false ∧ ready.txf.top.toNat < ready.cfg.capTx) ∧
    (canTake (.putChar 0x88) { putting .pc1 3 false with fgOp := none } ∧
      ready.cfg.capTx ≤ (putting .pc1 3 false).txf.top.toNat) :=
  ⟨⟨⟨rfl, rfl, rfl, rfl, rfl⟩, rfl, by decide⟩, ⟨rfl, rfl, rfl, rfl, rfl⟩, by decide⟩

theorem witness_PutCharStoresOneSlot :
    (putting .pc4 2 true).txf.data.wf = true ∧
    (nextOf (exec (.putChar 0x77) (putting .pc4 2 true))).isSome = true ∧
    (nextOf (exec (.putChar 0x77) (putting .pc5 2 true))).isSome = true := by decide

theorem witness_CommandsLeaveEnginesAlone :
    Instr.nop.isCommand = true ∧ (nextOf (exec .nop ready)).isSome = true ∧
    (nextOf (exec .clearOverflow ready)).isSome = true ∧
    (nextOf (exec .disableReceive ready)).isSome = true ∧
    (nextOf (exec (.putChar 0x77) (putting .pc5 2 true))).isSome = true := by decide

theorem witness_DataPendingMicroSteps :
    (canTake .dataPending ready ∧ ready.rxf.top = 0) ∧
    (canTake .dataPending (withRx false) ∧ (withRx false).rxf.top ≠ 0) ∧
    inFlight .dataPending .dp2 { withRx true with fgOp := some .dataPending, fgStep := .dp2 } ∧
    inFlight .dataPending .dp3 { withRx true with fgOp := some .dataPending, fgStep := .dp3 } :=
  ⟨⟨⟨rfl, rfl, rfl, rfl, rfl⟩, rfl⟩, ⟨⟨rfl, rfl, rfl, rfl, rfl⟩, by decide⟩, ⟨rfl, rfl, rfl, rfl⟩,
    ⟨rfl, rfl, rfl, rfl⟩⟩

theorem witness_DataPendingAnswersCount :
    canTake .dataPending (withRx false) ∧ (withRx false).rxf.dirty = false := ⟨⟨rfl, rfl, rfl, rfl, rfl⟩, rfl⟩

theorem witness_GetCharMicroSteps :
    canTake .getChar ready ∧
    (inFlight .getChar .gc2 { ready with fgOp := some .getChar, fgStep := .gc2 } ∧ 1 ≤ ready.cfg.capRx ∧
      ready.rxf.top = 0) ∧
    (inFlight .getChar .gc2 { withRx false with fgOp := some .getChar, fgStep := .gc2 } ∧
      (withRx false).rxf.top ≠ 0) ∧
    inFlight .getChar .gc1 { withRx true with fgOp := some .getChar, fgStep := .gc1 } ∧
    inFlight .getChar .gc3 { withRx false with fgOp := some .getChar, fgStep := .gc3 } :=
  ⟨⟨rfl, rfl, rfl, rfl, rfl⟩, ⟨⟨rfl, rfl, rfl, rfl⟩, by decide, rfl⟩, ⟨⟨rfl, rfl, rfl, rfl⟩, by decide⟩,
    ⟨rfl, rfl, rfl, rfl⟩, ⟨rfl, rfl, rfl, rfl⟩⟩

theorem witness_GetCharAnswersOldest :
    canTake .getChar (withRx false) ∧ 1 ≤ (withRx false).cfg.capRx ∧ (withRx false).rxf.dirty = false ∧
    contents (withRx false).rxf = 0x11 :: [0x22] := ⟨⟨rfl, rfl, rfl, rfl, rfl⟩, by decide, rfl, by decide⟩

/-- FC-7. -/
theorem witness_SecondGetCharWaitsForTick :
    (Started (withRx true) ∧ Inv (withRx true)) ∧ canTake .getChar (withRx true) ∧
    (withRx true).rxf.dirty = true ∧ contents (withRx true).rxf = 0x11 :: 0x22 :: [] :=
  ⟨withRx_inv true, ⟨rfl, rfl, rfl, rfl, rfl⟩, rfl, by decide⟩

theorem witness_ReceiveEnableCommands : canTake .enableReceive ready ∧ canTake .disableReceive ready :=
  ⟨⟨rfl, rfl, rfl, rfl, rfl⟩, ⟨rfl, rfl, rfl, rfl, rfl⟩⟩

theorem witness_ReadStatusAnswersStatus :
    ready.fault = none ∧ ready.edgeFireReady = false ∧ ready.fgOp = none := by decide

theorem witness_ClearOverflowClearsOneBit : canTake .clearOverflow { ready with status := 0x19 } :=
  ⟨rfl, rfl, rfl, rfl, rfl⟩

/-- A SEND with an event inside it that answers a count, and the idle block of FC-20. -/
theorem witness_SendCountsAcceptedBytes :
    (ready.fgOp = none ∧ ready.cmdPort = [] ∧
      (send 7 [0x41] { ready with script := [.event 0x80000001] }).2 = some 1 ∧
      (nextOf (send 7 [0x41] { ready with script := [.event 0x80000001] }).1).isSome = true) ∧
    ready.fault = none ∧ ready.cfg.valid = true ∧ ready.edgeFireReady = false ∧ ready.notinit = false ∧
    ready.script = [] ∧ ready.txf.data.wf = true ∧ ready.txf.lock = false ∧
    ready.txf.top.toNat ≤ ready.cfg.capTx := by decide

/-- EH-1, EH-2, EH-3, EH-4: the counts at the threshold, on either side of it, and at the ends of the range. -/
theorem witness_EdgeArmsIdleEngine :
    (ready.fault = none ∧ ready.edgeIe = true ∧ ready.gie = true ∧ ready.rxState = .idle) ∧
    countsAdmitted [0, 51, 52, 103] = true := by decide

/-- EH-8, EH-9, EH-11, and an EDGE while interrupts are off. -/
theorem witness_EdgeIgnoredLostOrLatched :
    let busy : State := { receivingAt 1 1 false with edgeIe := true }
    (busy.fault = none ∧ (Instr.edge 103).wellFormed busy.cfg = true ∧ busy.edgeIe = true ∧ busy.gie = true ∧
      (103 : BitVec 16).toNat ≤ busy.tmrTop.toNat ∧ busy.rxState ≠ .idle) ∧
    (State.reset.gie = false ∧ State.reset.cfg.edgeLatch = .none ∧
      (Instr.edge 10).wellFormed State.reset.cfg = true) ∧
    ((receivingAt 1 1 false).edgeIe = false ∧ (Instr.edge 0xFF).wellFormed latchTc = true ∧
      latchTc.edgeLatch = .latched) := by decide

/-- EH-12, at the largest count, and the same with a frame under way. -/
theorem witness_EdgeFireDeliversLatchedEdge :
    let idle : State := { ready with cfg := latchTc, edgePend := true }
    let busy : State := { receivingAt 1 1 false with cfg := latchTc, edgePend := true, edgeIe := true }
    (idle.fault = none ∧ (Instr.edgeFire 103).wellFormed idle.cfg = true ∧ idle.edgePend = true ∧
      idle.edgeIe = true ∧ idle.gie = true ∧ (103 : BitVec 16).toNat ≤ idle.tmrTop.toNat ∧
      idle.rxState = .idle) ∧
    (busy.edgePend = true ∧ busy.edgeIe = true ∧ busy.gie = true ∧ busy.rxState ≠ .idle) := by decide

/-- DV-3, DV-8, EV-3, an EDGE_FIRE with nothing pending, the first count above `TMR_TOP` (DV-6), and a command
while an EDGE_FIRE is due. -/
theorem witness_ImpossibleEventsHaveNoStep :
    let due : State := { ready with cfg := latchTc, edgePend := true }
    (({ ready with script := [.event 0x80000002] } : State).fault = none ∧ ready.cfg.valid = true ∧
      decodeEvent 0x80000002 = .error .operandBits) ∧
    (decodeEvent 0x8200003C = .ok (.edgeFire 60) ∧ (Instr.edgeFire 60).wellFormed ready.cfg = false) ∧
    (State.reset.fault = none ∧ State.reset.tmrRun = false) ∧ ready.cfg.edgeLatch = .none ∧
    ((Instr.edgeFire 60).wellFormed latchTc = true ∧
      ({ ready with cfg := latchTc } : State).edgePend = false) ∧
    ((Instr.edgeFire 104).wellFormed due.cfg = true ∧ due.edgeFireReady = true ∧
      due.tmrTop.toNat < (104 : BitVec 16).toNat) ∧
    ((Instr.edge 104).wellFormed ready.cfg = true ∧ ready.edgeIe = true ∧ ready.gie = true) ∧
    Instr.nop.isCommand = true := by decide

theorem witness_TickRunsHandler :
    canTick ready ∧ Inv ready ∧ ready.notinit = false ∧ ready.fault = none :=
  ⟨⟨rfl, rfl, by decide⟩, ready_inv.2, by decide, rfl⟩

/-- No compaction outstanding, and one that the service removes. -/
theorem witness_TickFrame :
    (withRx true).rxf.data.wf = true ∧ (nextOf (exec (.tick true) (withRx true))).isSome = true ∧
    (nextOf (exec (.tick true) withTx)).isSome = true ∧ withTx.rxf.dirty = false ∧
    txRemoves withTx = false := by decide

theorem witness_RxIdleLeftOnlyByEdge : (canTick ready ∧ ready.rxState = .idle) ∧
    after (.edge 10) ready State.rxState = some .armedCountdown :=
  ⟨⟨⟨rfl, rfl, by decide⟩, by decide⟩, by decide⟩

/-- The countdown at 0 and at 1, in both modes. -/
theorem witness_RxCountdownAndFirstSample :
    let armed (m : RxCdMode) (k : BitVec 2) : State :=
      { ready with cfg := { Config.tc with rxCdMode := m }, status := 0x01, rxCd := k, edgeIe := false }
    (canTick (armed .testThenDecrement 0) ∧ canTick (armed .testThenDecrement 1) ∧
      canTick (armed .decrementThenTest 1) ∧ canTick (armed .decrementThenTest 2)) ∧
    (armed .testThenDecrement 0).rxState = .armedCountdown :=
  ⟨⟨⟨rfl, rfl, by decide⟩, ⟨rfl, rfl, by decide⟩, ⟨rfl, rfl, by decide⟩, ⟨rfl, rfl, by decide⟩⟩, by decide⟩

theorem witness_RxPhaseGateAndDataBit :
    (canTick (receivingAt 1 1 false) ∧ frameEnds (receivingAt 1 1 false) = false) ∧
    (canTick (receivingAt 0x23 7 true) ∧ frameEnds (receivingAt 0x23 7 true) = false) ∧
    (receivingAt 0x23 7 true).rxState = .receiving ∧ (receivingAt 1 1 false).rxState = .receiving :=
  ⟨⟨⟨rfl, rfl, by decide⟩, by decide⟩, ⟨⟨rfl, rfl, by decide⟩, by decide⟩, by decide, by decide⟩

/-- A FIFO with room, and a full one. -/
theorem witness_RxStopBitEndsFrame :
    (canTick (receivingAt 0xA3 8 true) ∧ frameEnds (receivingAt 0xA3 8 true) = true) ∧
    (canTick { receivingAt 0xA3 8 true with rxf := (withRx true).rxf } ∧
      ready.cfg.capRx ≤ (withRx true).rxf.top.toNat) :=
  ⟨⟨⟨rfl, rfl, by decide⟩, by decide⟩, ⟨rfl, rfl, by decide⟩, by decide⟩

theorem witness_TickReceiveFifo : canTick (withRx true) ∧ (withRx true).rxf.data.wf = true ∧
    (withRx true).cfg.capRx ≤ 255 := ⟨⟨rfl, rfl, by decide⟩, by decide, by decide⟩

theorem witness_TickTransmitFifo :
    (canTick withTx ∧ withTx.txf.data.wf = true ∧ withTx.txf.dirty = false) ∧
    (canTick (sendingAt 0x08 8 false) ∧ txRemoves (sendingAt 0x08 8 false) = true) :=
  ⟨⟨⟨rfl, rfl, by decide⟩, by decide, rfl⟩, ⟨rfl, rfl, by decide⟩, by decide⟩

/-- Each engine state, acting and not. -/
theorem witness_TxGateStartAndDataBits :
    (canTick ready ∧ txAttempts ready = false ∧ ready.txPhase = false) ∧
    (canTick { ready with txPhase := true } ∧ ready.txf.top = 0) ∧
    (canTick withTx ∧ withTx.txState = .idle ∧ withTx.txf.top ≠ 0) ∧
    (canTick (sendingAt 0x04 0 false) ∧ (sendingAt 0x04 0 false).txState = .sentStartBit) ∧
    (canTick (sendingAt 0x08 7 false) ∧ txAttempts (sendingAt 0x08 7 false) = false ∧
      (sendingAt 0x08 7 false).txState = .sendingData) :=
  ⟨⟨⟨rfl, rfl, by decide⟩, by decide, rfl⟩, ⟨⟨rfl, rfl, by decide⟩, rfl⟩,
    ⟨⟨rfl, rfl, by decide⟩, by decide, by decide⟩, ⟨⟨rfl, rfl, by decide⟩, by decide⟩,
    ⟨rfl, rfl, by decide⟩, by decide, by decide⟩

/-- The first attempt and a retry, with the lock free and held. -/
theorem witness_TxStopBitAndRetry :
    (canTick (sendingAt 0x08 8 false) ∧ txAttempts (sendingAt 0x08 8 false) = true) ∧
    (canTick (sendingAt 0x08 8 true) ∧ txAttempts (sendingAt 0x08 8 true) = true) ∧
    (canTick (sendingAt 0x0C 8 false) ∧ txAttempts (sendingAt 0x0C 8 false) = true) ∧
    (canTick (sendingAt 0x0C 8 true) ∧ txAttempts (sendingAt 0x0C 8 true) = true) :=
  ⟨⟨⟨rfl, rfl, by decide⟩, by decide⟩, ⟨⟨rfl, rfl, by decide⟩, by decide⟩,
    ⟨⟨rfl, rfl, by decide⟩, by decide⟩, ⟨rfl, rfl, by decide⟩, by decide⟩

theorem witness_CompactFrontShiftsDown :
    (withRx true).rxf.data.wf = true ∧ (withRx true).rxf.top ≠ 0 ∧ ready.rxf.top = 0 ∧
    ready.rxf.data.wf = true := by decide

theorem witness_FifoKeepsArrivalOrder : (withRx true).rxf.data.wf = true ∧
    fifoAppend 3 (withRx true).rxf 0x33 ≠ none ∧ fifoAppend 2 (withRx true).rxf 0x33 = none := by decide

theorem witness_NotInitClearedOnceByInitialise :
    State.reset.notinit = true ∧ after (.initialise 2) State.reset State.notinit = some false ∧
    after .nop ready State.notinit = some false := by decide

theorem witness_OverflowFlagWriters :
    after (.tick true) { receivingAt 0xA3 8 true with rxf := (withRx false).rxf } State.rxovf = some true ∧
    (receivingAt 0xA3 8 true).rxovf = false ∧
    ({ ready with status := 0x10 } : State).rxovf = true ∧
    after .clearOverflow { ready with status := 0x10 } State.rxovf = some false := by decide

theorem witness_TimerFixedOnceRunning : ready.tmrRun = true ∧
    (nextOf (exec (.initialise 3) ready)).isSome = true ∧ (nextOf (exec (.tick true) ready)).isSome = true := by
  decide

theorem witness_LineChangesOnlyOnActingTicks :
    withTx.txd = true ∧ after (.tick true) withTx (·.txd) = some false ∧ State.reset.txd = false ∧
    after (.initialise 2) State.reset (·.txd) = some true := by decide

theorem witness_FrontByteStable :
    (Inv (withRx false) ∧ 1 ≤ (withRx false).rxf.top.toNat ∧ (withRx false).rxf.dirty = false) ∧
    (Inv withTx ∧ 1 ≤ withTx.txf.top.toNat ∧ withTx.txf.dirty = false ∧ txRemoves withTx = false) ∧
    (nextOf (exec (.tick true) (withRx false))).isSome = true ∧
    (nextOf (exec (.tick true) withTx)).isSome = true :=
  ⟨⟨(withRx_inv false).2, by decide⟩, ⟨withTx_inv.2, by decide⟩, by decide, by decide⟩

theorem witness_EdgesDisabledDuringFrame :
    after (.edge 10) ready (fun t => (t.rxState, t.edgeIe)) = some (.armedCountdown, false) ∧
    (ready.rxState ≠ .idle → ready.edgeIe = false) := by decide

theorem witness_HoldsAreLifted :
    (Inv (withRx true) ∧ (withRx true).notinit = false ∧ (withRx true).fgOp = none) ∧
    (nextOf (exec (.tick true) (withRx true))).isSome = true :=
  ⟨⟨(withRx_inv true).2, by decide, rfl⟩, by decide⟩

/-- EV-4 and EV-5, and the other side of the threshold. -/
theorem witness_SimultaneousEdgeAndTickOrder :
    canTick ready ∧ ready.edgeIe = true ∧ ready.rxState = .idle ∧
    countsAdmitted [10, 52] = true :=
  ⟨⟨rfl, rfl, by decide⟩, rfl, by decide, by decide⟩

theorem witness_FrameReceived :
    (Started ready ∧ Inv ready) ∧ ready.fault = none ∧ ready.rxState = .idle ∧ ready.edgeIe = true ∧
    ready.rxf.dirty = false ∧ (Started (withRx false) ∧ Inv (withRx false)) ∧
    countsAdmitted [0, 51, 52, 103] = true :=
  ⟨ready_inv, rfl, by decide, rfl, rfl, withRx_inv false, by decide⟩

theorem witness_FrameTransmitted :
    (Started withTx ∧ Inv withTx) ∧ withTx.fault = none ∧ withTx.txState = .idle ∧ withTx.txPhase = true ∧
    withTx.txf.lock = false ∧ contents withTx.txf = 0x55 :: [] :=
  ⟨withTx_inv, rfl, by decide, rfl, rfl, by decide⟩

end Sys2Proof.Tests
end

section
/-! PROOFS. The handlers of the events: an equation per case, and that none of them reads `GIE`. -/

namespace Sys2Proof.Proofs

open Sys2Proof.Machine Sys2Proof.Safety Sys2Proof.Laws

/-! The RX engine (42_rx_engine.md R163 to R175). -/

theorem rxStep_idle (lvl : Bool) {s : State} (hs : s.rxState = .idle) : rxStep lvl s = s := by
  simp only [rxStep, hs]

theorem rxStep_armed (lvl : Bool) {s : State} (hs : s.rxState = .armedCountdown) :
    rxStep lvl s = rxArmed lvl s := by
  simp only [rxStep, hs]

theorem rxStep_receiving (lvl : Bool) {s : State} (hs : s.rxState = .receiving) :
    rxStep lvl s = rxReceiving lvl s := by
  simp only [rxStep, hs]

theorem rxStep_reserved (lvl : Bool) {s : State} (hs : s.rxState = .reserved) : rxStep lvl s = s := by
  simp only [rxStep, hs]

theorem edgeHandler_idle (c : BitVec 16) {s : State} (hs : s.rxState = .idle) :
    edgeHandler c s = { s with edgeIe := false, rxCd := countdownFor c s.thresh }.setRxState .armedCountdown := by
  simp [edgeHandler, hs]

theorem edgeHandler_busy (c : BitVec 16) {s : State} (hs : s.rxState ≠ .idle) : edgeHandler c s = s := by
  simp [edgeHandler, hs]

/-- `RxArmed` counts down or takes the first sample, the countdown then at 0 (R170). -/
theorem rxArmed_cases (lvl : Bool) (s : State) :
    ((s.cfg.rxCdMode = .decrementThenTest → s.rxCd - 1 ≠ 0) ∧ rxArmed lvl s = { s with rxCd := s.rxCd - 1 }) ∨
    rxArmed lvl s = rxFirstSample lvl { s with rxCd := 0 } := by
  cases hm : s.cfg.rxCdMode with
  | testThenDecrement =>
    by_cases h : s.rxCd = 0#2
    · have hs : { s with rxCd := 0#2 } = s := by rw [← h]
      right; simp [rxArmed, hm, h, hs]
    · left; simp [rxArmed, hm, h]
  | decrementThenTest =>
    by_cases h : s.rxCd - 1#2 = 0#2
    · right; simp [rxArmed, hm, h]
    · left; simp [rxArmed, hm, h]

theorem rxReceiving_gated (lvl : Bool) {s : State} (hp : s.rxPhase = false) :
    rxReceiving lvl s = { s with rxPhase := true } := by
  simp [rxReceiving, hp]

theorem rxReceiving_data (lvl : Bool) {s : State} (hp : s.rxPhase = true) (hn : s.rxBitcnt.toNat < 8) :
    rxReceiving lvl s = rxDataBit lvl { s with rxPhase := false } := by
  simp [rxReceiving, hp, hn]

theorem rxReceiving_stop (lvl : Bool) {s : State} (hp : s.rxPhase = true) (hn : ¬ s.rxBitcnt.toNat < 8) :
    rxReceiving lvl s = rxStopBit lvl { s with rxPhase := false } := by
  simp [rxReceiving, hp, hn]

/-! The TX engine (43_tx_engine.md R190 to R196). -/

theorem txStep_gated {s : State} (hp : s.txPhase = false) : txStep s = { s with txPhase := true } := by
  simp [txStep, hp]

/-- The dispatch of an acting tick (R190), the phase toggle written. -/
def txAct (s : State) : State :=
  match s.txState with
  | .idle => txIdle s
  | .sentStartBit => txStartSent s
  | .sendingData => txSending s
  | .bufferLocked => txLocked s

theorem txAct_idle {s : State} (hs : s.txState = .idle) : txAct s = txIdle s := by simp only [txAct, hs]

theorem txAct_sentStartBit {s : State} (hs : s.txState = .sentStartBit) : txAct s = txStartSent s := by
  simp only [txAct, hs]

theorem txAct_sendingData {s : State} (hs : s.txState = .sendingData) : txAct s = txSending s := by
  simp only [txAct, hs]

theorem txAct_bufferLocked {s : State} (hs : s.txState = .bufferLocked) :
    txAct s = txCompact .bufferLocked s := by
  simp only [txAct, hs, txLocked]

theorem txStep_acting {s : State} (hp : s.txPhase = true) : txStep s = txAct { s with txPhase := false } := by
  simp only [txStep, hp]; rfl

theorem txIdle_pending {s : State} (h : 1 ≤ s.txf.top.toNat) :
    txIdle s = { s with txd := false, txShift := fifoRead s.txf 0, txBitcnt := 0 }.setTxState .sentStartBit :=
  if_pos h

theorem txIdle_empty {s : State} (h : ¬ 1 ≤ s.txf.top.toNat) : txIdle s = s := if_neg h

theorem txSending_bit {s : State} (h : s.txBitcnt.toNat < 8) :
    txSending s = { s with txd := bitOf s.txShift s.txBitcnt, txBitcnt := s.txBitcnt + 1 } :=
  if_pos h

theorem txSending_stop {s : State} (h : ¬ s.txBitcnt.toNat < 8) :
    txSending s = txCompact .bufferLocked { s with txd := true } :=
  if_neg h

/-! No handler reads `GIE`, so an interrupt is its handler (60_exceptions.md R298, R299). -/

/-- `f` neither reads nor writes `GIE`: writing it before `f` is writing it after. -/
def IgnoresGie (f : State → State) : Prop :=
  ∀ (g : Bool) (s : State), f (interruptReturn g s) = interruptReturn g (f s)

/-- The mask of an interrupt and its restoring cancel. -/
theorem IgnoresGie.takeInterrupt_eq {f : State → State} (hf : IgnoresGie f) (s : State) : takeInterrupt f s = f s :=
  calc takeInterrupt f s = interruptReturn s.gie (f (interruptReturn false s)) := rfl
    _ = interruptReturn s.gie (f s) := by rw [hf]; rfl
    _ = f s := (hf s.gie s).symm

theorem ignoresGie_edgeHandler (c : BitVec 16) : IgnoresGie (edgeHandler c) := fun g s => by
  by_cases hs : s.rxState = .idle
  · rw [edgeHandler_idle c hs, edgeHandler_idle c (s := interruptReturn g s) hs]; rfl
  · rw [edgeHandler_busy c hs, edgeHandler_busy c (s := interruptReturn g s) hs]

theorem ignoresGie_rxArmed (lvl : Bool) : IgnoresGie (rxArmed lvl) := fun g s => by
  cases hm : s.cfg.rxCdMode with
  | testThenDecrement => by_cases h : s.rxCd = 0#2 <;> simp [rxArmed, hm, h] <;> rfl
  | decrementThenTest => by_cases h : s.rxCd - 1#2 = 0#2 <;> simp [rxArmed, hm, h] <;> rfl

theorem ignoresGie_rxPush : IgnoresGie rxPush := fun g s => by
  simp only [rxPush, interruptReturn_cfg, interruptReturn_rxf, interruptReturn_rxShift]
  cases fifoAppend s.cfg.capRx s.rxf s.rxShift <;> rfl

theorem ignoresGie_rxStopBit (lvl : Bool) : IgnoresGie (rxStopBit lvl) := fun g s => by
  cases lvl with
  | false => rfl
  | true => simp only [rxStopBit, if_true, ignoresGie_rxPush g s]; rfl

theorem ignoresGie_rxReceiving (lvl : Bool) : IgnoresGie (rxReceiving lvl) := fun g s => by
  cases hp : s.rxPhase with
  | false => rw [rxReceiving_gated lvl hp, rxReceiving_gated lvl (s := interruptReturn g s) hp]; rfl
  | true =>
    by_cases hn : s.rxBitcnt.toNat < 8
    · rw [rxReceiving_data lvl hp hn, rxReceiving_data lvl (s := interruptReturn g s) hp hn]; rfl
    · rw [rxReceiving_stop lvl hp hn, rxReceiving_stop lvl (s := interruptReturn g s) hp hn]
      exact ignoresGie_rxStopBit lvl g { s with rxPhase := false }

theorem ignoresGie_rxStep (lvl : Bool) : IgnoresGie (rxStep lvl) := fun g s => by
  cases hs : s.rxState with
  | idle => rw [rxStep_idle lvl hs, rxStep_idle lvl (s := interruptReturn g s) hs]
  | armedCountdown =>
    rw [rxStep_armed lvl hs, rxStep_armed lvl (s := interruptReturn g s) hs, ignoresGie_rxArmed]
  | receiving =>
    rw [rxStep_receiving lvl hs, rxStep_receiving lvl (s := interruptReturn g s) hs, ignoresGie_rxReceiving]
  | reserved => rw [rxStep_reserved lvl hs, rxStep_reserved lvl (s := interruptReturn g s) hs]

theorem ignoresGie_txCompact (x : TxState) : IgnoresGie (txCompact x) := fun g s => by
  cases h : s.txf.lock <;> simp [txCompact, tryLock, h] <;> rfl

theorem ignoresGie_txIdle : IgnoresGie txIdle := fun g s => by
  by_cases h : 1 ≤ s.txf.top.toNat
  · rw [txIdle_pending h, txIdle_pending (s := interruptReturn g s) h]; rfl
  · rw [txIdle_empty h, txIdle_empty (s := interruptReturn g s) h]

theorem ignoresGie_txSending : IgnoresGie txSending := fun g s => by
  by_cases h : s.txBitcnt.toNat < 8
  · rw [txSending_bit h, txSending_bit (s := interruptReturn g s) h]; rfl
  · rw [txSending_stop h, txSending_stop (s := interruptReturn g s) h]
    exact ignoresGie_txCompact .bufferLocked g { s with txd := true }

theorem ignoresGie_txAct : IgnoresGie txAct := fun g s => by
  cases hs : s.txState with
  | idle => rw [txAct_idle hs, txAct_idle (s := interruptReturn g s) hs, ignoresGie_txIdle]
  | sentStartBit => rw [txAct_sentStartBit hs, txAct_sentStartBit (s := interruptReturn g s) hs]; rfl
  | sendingData => rw [txAct_sendingData hs, txAct_sendingData (s := interruptReturn g s) hs, ignoresGie_txSending]
  | bufferLocked =>
    rw [txAct_bufferLocked hs, txAct_bufferLocked (s := interruptReturn g s) hs, ignoresGie_txCompact]

theorem ignoresGie_txStep : IgnoresGie txStep := fun g s => by
  cases hp : s.txPhase with
  | false => rw [txStep_gated hp, txStep_gated (s := interruptReturn g s) hp]; rfl
  | true =>
    rw [txStep_acting hp, txStep_acting (s := interruptReturn g s) hp]
    exact ignoresGie_txAct g { s with txPhase := false }

theorem ignoresGie_service (f : FifoId) : IgnoresGie (service f) := fun _ _ => by cases f <;> rfl

theorem ignoresGie_tickHandler (lvl : Bool) : IgnoresGie (tickHandler lvl) := fun g s => by
  simp only [tickHandler, ignoresGie_rxStep lvl g, ignoresGie_txStep g, ignoresGie_service _ g]

end Sys2Proof.Proofs
end

section
/-! PROOFS. What an operation that answers a next state did, said once for the twelve operations. -/

namespace Sys2Proof.Proofs

open Sys2Proof.Machine Sys2Proof.Safety Sys2Proof.Laws

/-- Micro-step `l` is the one a foreground turn of command `i` runs in `s`: `first`, the command being taken and
the link up where it needs it, or `FG_STEP` of the command in flight (44_facade.md R220, R221). -/
def RunsAt (i : Instr) (first l : FgStep) (s : State) : Prop :=
  (s.fgOp = none ∧ (needsLink i && s.notinit) = false ∧ l = first) ∨ (s.fgOp = some i ∧ l = s.fgStep)

/-- What operation `i` can make of `s`: one constructor per micro-step outcome and per event outcome, with the
conditions of that outcome but for `FAULT` and a due EDGE_FIRE. -/
inductive Effect : Instr → State → State → Prop
  /-- R221, R290: the command is taken and faulted. -/
  | rejected {i s} (c : FaultCode) : i.isCommand = true → s.fgOp = none → Effect i s (raiseFault c s)
  | nop {s} : RunsAt .nop .n1 .n1 s → Effect .nop s (deliver 0 s)
  | initRunning {idx s} : RunsAt (.initialise idx) .i1 .i1 s → s.tmrRun = true →
      Effect (.initialise idx) s (deliver 1 s)
  | initInterruptible {idx s} : RunsAt (.initialise idx) .i1 .i1 s → s.tmrRun = false → s.gie = true →
      Effect (.initialise idx) s (raiseFault .initInterruptible s)
  | initNoStorage {idx s} : RunsAt (.initialise idx) .i1 .i1 s → s.tmrRun = false → s.gie = false →
      s.storageOk = false → Effect (.initialise idx) s (deliver 2 s)
  | initDone {idx s} (ts : TimerSetting) : RunsAt (.initialise idx) .i1 .i1 s → s.tmrRun = false → s.gie = false →
      timerSetting s.cfg idx.toNat = some ts →
      Effect (.initialise idx) s (deliverFrom .i1 0 (initialiseEffects idx ts s))
  | pc1Held {b s} : RunsAt (.putChar b) .pc1 .pc1 s → s.txf.lock = true →
      Effect (.putChar b) s (goTo (.putChar b) .pc1 s)
  | pc1Free {b s} : RunsAt (.putChar b) .pc1 .pc1 s → s.txf.lock = false →
      Effect (.putChar b) s (goTo (.putChar b) .pc2 s)
  | pc2Held {b s} : RunsAt (.putChar b) .pc1 .pc2 s → s.txf.lock = true →
      Effect (.putChar b) s (goTo (.putChar b) .pc1 s)
  | pc2Taken {b s} : RunsAt (.putChar b) .pc1 .pc2 s → s.txf.lock = false →
      Effect (.putChar b) s (goTo (.putChar b) .pc3 { s with txf := { s.txf with lock := true } })
  | pc3Full {b s} : RunsAt (.putChar b) .pc1 .pc3 s → s.cfg.capTx ≤ s.txf.top.toNat →
      Effect (.putChar b) s (goTo (.putChar b) .pc6 { s with fgT := s.txf.top, fgAcc := false })
  | pc3Room {b s} : RunsAt (.putChar b) .pc1 .pc3 s → s.txf.top.toNat < s.cfg.capTx →
      Effect (.putChar b) s (goTo (.putChar b) .pc4 { s with fgT := s.txf.top })
  | pc4 {b s} : RunsAt (.putChar b) .pc1 .pc4 s →
      Effect (.putChar b) s (goTo (.putChar b) .pc5 { s with txf := fifoWrite s.txf s.fgT.toNat b })
  | pc5 {b s} : RunsAt (.putChar b) .pc1 .pc5 s →
      Effect (.putChar b) s (goTo (.putChar b) .pc6 { s with txf := { s.txf with top := s.fgT + 1 }, fgAcc := true })
  | pc6 {b s} : RunsAt (.putChar b) .pc1 .pc6 s →
      Effect (.putChar b) s (deliver (flagValue s.fgAcc) { s with txf := unlock s.txf })
  | dp1Empty {s} : RunsAt .dataPending .dp1 .dp1 s → s.rxf.top = 0 →
      Effect .dataPending s (deliverFrom .dp1 0 { s with fgT := s.rxf.top })
  | dp1Some {s} : RunsAt .dataPending .dp1 .dp1 s → s.rxf.top ≠ 0 →
      Effect .dataPending s (goTo .dataPending .dp2 { s with fgT := s.rxf.top })
  | dp2Held {s} : RunsAt .dataPending .dp1 .dp2 s → s.rxf.dirty = true →
      Effect .dataPending s (goTo .dataPending .dp2 s)
  | dp2Free {s} : RunsAt .dataPending .dp1 .dp2 s → s.rxf.dirty = false →
      Effect .dataPending s (goTo .dataPending .dp3 s)
  | dp3 {s} : RunsAt .dataPending .dp1 .dp3 s →
      Effect .dataPending s (deliver (byteValue s.rxf.top) { s with fgT := s.rxf.top })
  | gc1Held {s} : RunsAt .getChar .gc1 .gc1 s → s.rxf.dirty = true → Effect .getChar s (goTo .getChar .gc1 s)
  | gc1Free {s} : RunsAt .getChar .gc1 .gc1 s → s.rxf.dirty = false → Effect .getChar s (goTo .getChar .gc2 s)
  | gc2Empty {s} : RunsAt .getChar .gc1 .gc2 s → s.rxf.top = 0 → Effect .getChar s (raiseFault .getcharEmpty s)
  | gc2Some {s} : RunsAt .getChar .gc1 .gc2 s → s.rxf.top ≠ 0 →
      Effect .getChar s (goTo .getChar .gc3 { s with fgV := fifoRead s.rxf 0 })
  | gc3 {s} : RunsAt .getChar .gc1 .gc3 s →
      Effect .getChar s (deliver (byteValue s.fgV) { s with rxf := { s.rxf with dirty := true } })
  | enableReceive {s} : RunsAt .enableReceive .er1 .er1 s →
      Effect .enableReceive s (deliverFrom .er1 0 { s with edgeIe := true })
  | disableReceive {s} : RunsAt .disableReceive .dr1 .dr1 s →
      Effect .disableReceive s (deliverFrom .dr1 0 { s with edgeIe := false })
  | readStatus {s} : RunsAt .readStatus .rs1 .rs1 s →
      Effect .readStatus s (deliverFrom .rs1 (byteValue (readStatusWord s.status)) s)
  | clearOverflow {s} : RunsAt .clearOverflow .co1 .co1 s →
      Effect .clearOverflow s (deliverFrom .co1 0 { s with status := clearRxovf s.status })
  | tick {lvl s} : s.tickReady = true → s.legal = true → Effect (.tick lvl) s (tickHandler lvl s)
  | edgeTaken {c s} : s.edgeReady = true → Effect (.edge c) s (edgeHandler c s)
  | edgeLatched {c s} : s.edgeReady = false → s.cfg.edgeLatch = .latched →
      Effect (.edge c) s { s with edgePend := true }
  | edgeLost {c s} : s.edgeReady = false → s.cfg.edgeLatch ≠ .latched → Effect (.edge c) s s
  | edgeFire {c s} : s.edgeFireReady = true → Effect (.edgeFire c) s (edgeHandler c { s with edgePend := false })

/-- A foreground step faults the command it takes, or runs one micro-step of it. -/
theorem foregroundStep_rejects_or_runs {i : Instr} {first : FgStep}
    {body : FgStep → State → Host.Outcome State Fault Refusal} {s t : State}
    (h : foregroundStep i first body s = .next t) :
    (s.fgOp = none ∧ ∃ c, t = raiseFault c s) ∨ ∃ l, RunsAt i first l s ∧ body l s = .next t := by
  obtain ⟨-, -, ⟨ho, -, ht⟩ | ⟨ho, -, -, -, ht⟩ | ⟨ho, -, hn, hb⟩ | ⟨ho, hb⟩⟩ := foregroundStep_next h
  · exact .inl ⟨ho, _, ht⟩
  · exact .inl ⟨ho, _, ht⟩
  · exact .inr ⟨first, .inl ⟨ho, hn, rfl⟩, hb⟩
  · exact .inr ⟨s.fgStep, .inr ⟨ho, rfl⟩, hb⟩

/-- A command's effect is known once that of its micro-steps is. -/
theorem foregroundStep_effect {i : Instr} {first : FgStep}
    {body : FgStep → State → Host.Outcome State Fault Refusal} {s t : State} (hc : i.isCommand = true)
    (h : foregroundStep i first body s = .next t)
    (hbody : ∀ l, RunsAt i first l s → body l s = .next t → Effect i s t) : Effect i s t := by
  obtain ⟨ho, c, rfl⟩ | ⟨l, hl, hb⟩ := foregroundStep_rejects_or_runs h
  · exact .rejected c hc ho
  · exact hbody l hl hb

theorem execNop_effect {s t : State} (h : execNop s = .next t) : Effect .nop s t := by
  refine foregroundStep_effect rfl h fun l hl hb => ?_
  cases l <;> cases hb
  exact .nop hl

theorem initialiseI1_effect {idx : BitVec 3} {s t : State} (hl : RunsAt (.initialise idx) .i1 .i1 s)
    (h : initialiseI1 idx s = .next t) : Effect (.initialise idx) s t := by
  unfold initialiseI1 at h
  split at h
  · rename_i hr; cases h; exact .initRunning hl hr
  · rename_i hr
    have hr' : s.tmrRun = false := by simpa using hr
    split at h
    · rename_i hg; cases h; exact .initInterruptible hl hr' hg
    · rename_i hg
      have hg' : s.gie = false := by simpa using hg
      split at h
      · rename_i hs; cases h; exact .initNoStorage hl hr' hg' (by simpa using hs)
      · split at h
        · rename_i ts hts; cases h; exact .initDone ts hl hr' hg' hts
        · cases h

theorem execInitialise_effect {idx : BitVec 3} {s t : State} (h : execInitialise idx s = .next t) :
    Effect (.initialise idx) s t := by
  refine foregroundStep_effect rfl h fun l hl hb => ?_
  cases l
  case i1 => exact initialiseI1_effect hl hb
  all_goals cases hb

theorem putCharPc1_effect {b : Byte} {s : State} (hl : RunsAt (.putChar b) .pc1 .pc1 s) :
    Effect (.putChar b) s (putCharPc1 b s) := by
  unfold putCharPc1
  split <;> rename_i hk
  · exact .pc1Held hl hk
  · exact .pc1Free hl (by simpa using hk)

theorem putCharPc2_effect {b : Byte} {s : State} (hl : RunsAt (.putChar b) .pc1 .pc2 s) :
    Effect (.putChar b) s (putCharPc2 b s) := by
  cases hk : s.txf.lock with
  | true => simpa [putCharPc2, testAndSet_tx, hk] using Effect.pc2Held hl hk
  | false => simpa [putCharPc2, testAndSet_tx, hk] using Effect.pc2Taken hl hk

theorem putCharPc3_effect {b : Byte} {s : State} (hl : RunsAt (.putChar b) .pc1 .pc3 s) :
    Effect (.putChar b) s (putCharPc3 b s) := by
  unfold putCharPc3
  split <;> rename_i hk
  · exact .pc3Full hl hk
  · exact .pc3Room hl (by omega)

theorem dataPendingDp1_effect {s : State} (hl : RunsAt .dataPending .dp1 .dp1 s) :
    Effect .dataPending s (dataPendingDp1 s) := by
  unfold dataPendingDp1
  split <;> rename_i hk
  · exact .dp1Empty hl hk
  · exact .dp1Some hl hk

theorem dataPendingDp2_effect {s : State} (hl : RunsAt .dataPending .dp1 .dp2 s) :
    Effect .dataPending s (dataPendingDp2 s) := by
  unfold dataPendingDp2
  split <;> rename_i hk
  · exact .dp2Held hl hk
  · exact .dp2Free hl (by simpa using hk)

theorem getCharGc1_effect {s : State} (hl : RunsAt .getChar .gc1 .gc1 s) : Effect .getChar s (getCharGc1 s) := by
  unfold getCharGc1
  split <;> rename_i hk
  · exact .gc1Held hl hk
  · exact .gc1Free hl (by simpa using hk)

theorem getCharGc2_effect {s : State} (hl : RunsAt .getChar .gc1 .gc2 s) : Effect .getChar s (getCharGc2 s) := by
  unfold getCharGc2
  split <;> rename_i hk
  · exact .gc2Empty hl hk
  · exact .gc2Some hl hk

theorem execPutChar_effect {b : Byte} {s t : State} (h : execPutChar b s = .next t) : Effect (.putChar b) s t := by
  refine foregroundStep_effect rfl h fun l hl hb => ?_
  cases l <;> simp only at hb
  case pc1 => cases hb; exact putCharPc1_effect hl
  case pc2 => cases hb; exact putCharPc2_effect hl
  case pc3 => cases hb; exact putCharPc3_effect hl
  case pc4 => split at hb <;> cases hb; exact .pc4 hl
  case pc5 => split at hb <;> cases hb; exact .pc5 hl
  case pc6 => cases hb; exact .pc6 hl
  all_goals cases hb

theorem execDataPending_effect {s t : State} (h : execDataPending s = .next t) : Effect .dataPending s t := by
  refine foregroundStep_effect rfl h fun l hl hb => ?_
  cases l <;> cases hb
  case dp1 => exact dataPendingDp1_effect hl
  case dp2 => exact dataPendingDp2_effect hl
  case dp3 => exact .dp3 hl

theorem execGetChar_effect {s t : State} (h : execGetChar s = .next t) : Effect .getChar s t := by
  refine foregroundStep_effect rfl h fun l hl hb => ?_
  cases l <;> simp only at hb
  case gc1 => cases hb; exact getCharGc1_effect hl
  case gc2 => split at hb <;> cases hb; exact getCharGc2_effect hl
  case gc3 => cases hb; exact .gc3 hl
  all_goals cases hb

theorem execEnableReceive_effect {s t : State} (h : execEnableReceive s = .next t) : Effect .enableReceive s t := by
  refine foregroundStep_effect rfl h fun l hl hb => ?_
  cases l <;> cases hb
  exact .enableReceive hl

theorem execDisableReceive_effect {s t : State} (h : execDisableReceive s = .next t) : Effect .disableReceive s t := by
  refine foregroundStep_effect rfl h fun l hl hb => ?_
  cases l <;> cases hb
  exact .disableReceive hl

theorem execReadStatus_effect {s t : State} (h : execReadStatus s = .next t) : Effect .readStatus s t := by
  refine foregroundStep_effect rfl h fun l hl hb => ?_
  cases l <;> cases hb
  exact .readStatus hl

theorem execClearOverflow_effect {s t : State} (h : execClearOverflow s = .next t) : Effect .clearOverflow s t := by
  refine foregroundStep_effect rfl h fun l hl hb => ?_
  cases l <;> cases hb
  exact .clearOverflow hl

theorem execTick_effect {lvl : Bool} {s t : State} (h : execTick lvl s = .next t) : Effect (.tick lvl) s t := by
  obtain ⟨-, -, hb⟩ := eventStep_next h
  rw [(ignoresGie_tickHandler lvl).takeInterrupt_eq] at hb
  split at hb
  · cases hb
  · rename_i hr
    split at hb
    · cases hb
    · rename_i hl
      cases hb
      exact .tick (by simpa using hr) (by simpa using hl)

theorem execEdge_effect {c : BitVec 16} {s t : State} (h : execEdge c s = .next t) : Effect (.edge c) s t := by
  obtain ⟨-, -, hb⟩ := eventStep_next h
  rw [(ignoresGie_edgeHandler c).takeInterrupt_eq] at hb
  split at hb
  · rename_i hr
    split at hb <;> cases hb
    exact .edgeTaken hr
  · rename_i hr
    split at hb <;> rename_i hl <;> cases hb
    · exact .edgeLatched (by simpa using hr) hl
    · exact .edgeLost (by simpa using hr) hl

theorem execEdgeFire_effect {c : BitVec 16} {s t : State} (h : execEdgeFire c s = .next t) :
    Effect (.edgeFire c) s t := by
  have hf : IgnoresGie (fun u => edgeHandler c { u with edgePend := false }) := fun g u =>
    ignoresGie_edgeHandler c g { u with edgePend := false }
  obtain ⟨-, -, hb⟩ := eventStep_next h
  rw [hf.takeInterrupt_eq] at hb
  split at hb
  · cases hb
  · rename_i hr
    split at hb <;> cases hb
    exact .edgeFire (by simpa using hr)

/-- An operation that answers a next state had one of the effects. -/
theorem exec_effect {i : Instr} {s t : State} (h : exec i s = .next t) : Effect i s t := by
  cases i with
  | nop => exact execNop_effect h
  | initialise idx => exact execInitialise_effect h
  | putChar b => exact execPutChar_effect h
  | dataPending => exact execDataPending_effect h
  | getChar => exact execGetChar_effect h
  | enableReceive => exact execEnableReceive_effect h
  | disableReceive => exact execDisableReceive_effect h
  | readStatus => exact execReadStatus_effect h
  | clearOverflow => exact execClearOverflow_effect h
  | tick lvl => exact execTick_effect h
  | edge c => exact execEdge_effect h
  | edgeFire c => exact execEdgeFire_effect h

end Sys2Proof.Proofs
end

section
/-! PROOFS. Which operation writes which status bit and which enable (10_state.md R26 to R29, R54(j)). -/

namespace Sys2Proof.Proofs

open Sys2Proof.Machine Sys2Proof.Safety Sys2Proof.Laws

/-! What a tick writes. -/

theorem setRxState_rxState (s : State) : s.setRxState s.rxState = s := by
  have h : ∀ st, setRxs st (rxsOf st) = st := by decide
  rw [State.setRxState, State.rxState, h]

theorem setTxState_txState (s : State) : s.setTxState s.txState = s := by
  have h : ∀ st, setTxs st (txsOf st) = st := by decide
  rw [State.setTxState, State.txState, h]

/-- The compaction attempt writes `TXS` and `TXF`. -/
theorem txCompact_writes (locked : TxState) (s : State) :
    ∃ x f, txCompact locked s = { s with txf := f }.setTxState x := by
  obtain ⟨-, h⟩ | ⟨-, h⟩ := txCompact_cases locked s
  · exact ⟨.idle, _, h⟩
  · exact ⟨locked, s.txf, h⟩

/-- An acting tick of the TX engine writes `TXS`, its registers but the phase, the line and `TXF` (R201). -/
theorem txAct_writes (s : State) : ∃ x d sh n f,
    txAct s = { s with txd := d, txShift := sh, txBitcnt := n, txf := f }.setTxState x := by
  have same (u : State) : u = u.setTxState u.txState := (setTxState_txState u).symm
  cases hs : s.txState with
  | idle =>
    rw [txAct_idle hs]
    by_cases h : 1 ≤ s.txf.top.toNat
    · exact ⟨.sentStartBit, _, _, _, _, txIdle_pending h⟩
    · exact ⟨s.txState, _, _, _, _, (txIdle_empty h).trans (same s)⟩
  | sentStartBit => exact ⟨.sendingData, _, _, _, _, txAct_sentStartBit hs⟩
  | sendingData =>
    rw [txAct_sendingData hs]
    by_cases h : s.txBitcnt.toNat < 8
    · exact ⟨s.txState, _, _, _, _, (txSending_bit h).trans (same _)⟩
    · obtain ⟨x, f, hx⟩ := txCompact_writes .bufferLocked { s with txd := true }
      exact ⟨x, _, _, _, f, (txSending_stop h).trans hx⟩
  | bufferLocked =>
    obtain ⟨x, f, hx⟩ := txCompact_writes .bufferLocked s
    exact ⟨x, _, _, _, f, (txAct_bufferLocked hs).trans hx⟩

/-- The TX engine writes `TXS`, its own registers, the line and `TXF`, and nothing else (R201). -/
theorem txStep_writes (s : State) : ∃ x p d sh n f,
    txStep s = { s with txPhase := p, txd := d, txShift := sh, txBitcnt := n, txf := f }.setTxState x := by
  cases hp : s.txPhase with
  | false => exact ⟨s.txState, true, _, _, _, _, (txStep_gated hp).trans (setTxState_txState _).symm⟩
  | true =>
    obtain ⟨x, d, sh, n, f, h⟩ := txAct_writes { s with txPhase := false }
    exact ⟨x, false, d, sh, n, f, (txStep_acting hp).trans h⟩

/-- A TICK at level `lvl` in `s` ends a valid frame on a full `RXF` (R173). -/
def overflows (lvl : Bool) (s : State) : Bool := frameEnds s && lvl && decide (s.cfg.capRx ≤ s.rxf.top.toNat)

/-- The push of the stop-bit slot writes `RXF`, or sets `RXOVF` on a full one (R173). -/
theorem rxPush_writes (s : State) : ∃ f,
    rxPush s = { (if s.cfg.capRx ≤ s.rxf.top.toNat then s.setOverflow else s) with rxf := f } := by
  obtain ⟨hr, h⟩ | ⟨hr, h⟩ := fifoAppend_cases s.cfg.capRx s.rxf s.rxShift
  · exact ⟨_, by rw [rxPush, h, if_neg (by omega)]⟩
  · exact ⟨s.rxf, by rw [rxPush, h, if_pos hr]; rfl⟩

/-- The stop-bit slot ends the frame (R173 to R175). -/
theorem rxStopBit_writes (lvl : Bool) (s : State) : ∃ f, rxStopBit lvl s =
    { (if lvl && decide (s.cfg.capRx ≤ s.rxf.top.toNat) then s.setOverflow else s) with
      rxShift := 0, rxBitcnt := 0, edgeIe := true, rxf := f }.setRxState .idle := by
  cases lvl with
  | false => exact ⟨s.rxf, rfl⟩
  | true =>
    obtain ⟨f, h⟩ := rxPush_writes s
    exact ⟨f, by simp only [rxStopBit, if_true, h, Bool.true_and, decide_eq_true_eq]; rfl⟩

/-- The RX engine writes `RXS`, its own registers, `EDGE_IE` and `RXF`, and sets `RXOVF` where the TICK overflows
(R176). -/
theorem rxStep_writes (lvl : Bool) {s : State} (hn : s.rxBitcnt.toNat ≤ 8) : ∃ x sh n p cd e f,
    rxStep lvl s = { (if overflows lvl s then s.setOverflow else s) with
      rxShift := sh, rxBitcnt := n, rxPhase := p, rxCd := cd, edgeIe := e, rxf := f }.setRxState x := by
  have same (u : State) : u = u.setRxState u.rxState := (setRxState_rxState u).symm
  have quiet (h : frameEnds s = false) : (if overflows lvl s then s.setOverflow else s) = s := by
    simp [overflows, h]
  cases hs : s.rxState with
  | idle =>
    rw [quiet (by simp [frameEnds, rxActs, hs])]
    exact ⟨s.rxState, _, _, _, _, _, _, (rxStep_idle lvl hs).trans (same s)⟩
  | reserved =>
    rw [quiet (by simp [frameEnds, rxActs, hs])]
    exact ⟨s.rxState, _, _, _, _, _, _, (rxStep_reserved lvl hs).trans (same s)⟩
  | armedCountdown =>
    rw [quiet (by simp [frameEnds, rxActs, hs]), rxStep_armed lvl hs]
    obtain ⟨-, h⟩ | h := rxArmed_cases lvl s
    · exact ⟨s.rxState, _, _, _, _, _, _, h.trans (same _)⟩
    · exact ⟨.receiving, _, _, _, _, _, _, h⟩
  | receiving =>
    rw [rxStep_receiving lvl hs]
    cases hp : s.rxPhase with
    | false =>
      rw [quiet (by simp [frameEnds, rxActs, hp])]
      exact ⟨s.rxState, _, _, true, _, _, _, (rxReceiving_gated lvl hp).trans (same _)⟩
    | true =>
      by_cases hb : s.rxBitcnt.toNat < 8
      · rw [quiet (by simp [frameEnds, hb.ne])]
        exact ⟨s.rxState, _, _, false, _, _, _, (rxReceiving_data lvl hp hb).trans (same _)⟩
      · obtain ⟨f, h⟩ := rxStopBit_writes lvl { s with rxPhase := false }
        have h8 : s.rxBitcnt.toNat = 8 := by omega
        have ho : overflows lvl s = (lvl && decide (s.cfg.capRx ≤ s.rxf.top.toNat)) := by
          simp [overflows, frameEnds, rxActs, hs, hp, h8]
        refine ⟨.idle, 0, 0, false, s.rxCd, true, f, ?_⟩
        rw [rxReceiving_stop lvl hp hb, h, ho]
        split <;> rfl

@[simp] theorem service_status (f : FifoId) (s : State) : (service f s).status = s.status := by cases f <;> rfl
@[simp] theorem service_edgeIe (f : FifoId) (s : State) : (service f s).edgeIe = s.edgeIe := by cases f <;> rfl

@[simp] theorem txStep_edgeIe (s : State) : (txStep s).edgeIe = s.edgeIe := by
  obtain ⟨x, p, d, sh, n, f, h⟩ := txStep_writes s
  rw [h]; rfl

/-- A TICK writes the engines' fields of the status word, and sets `RXOVF` where it overflows (R29). -/
theorem tickHandler_status (lvl : Bool) {s : State} (hn : s.rxBitcnt.toNat ≤ 8) : ∃ x y,
    (tickHandler lvl s).status =
      setTxs (setRxs (if overflows lvl s then setRxovf s.status else s.status) x) y := by
  obtain ⟨x, sh, n, p, cd, e, f, hr⟩ := rxStep_writes lvl hn
  obtain ⟨y, p', d, sh', n', f', ht⟩ := txStep_writes (rxStep lvl s)
  refine ⟨x, y, ?_⟩
  rw [tickHandler, service_status, service_status, ht, hr]
  split <;> rfl

/-- The receiver ends a tick `IDLE`, or with `EDGE_IE` as it was and not having left `IDLE` (R169, R175). -/
theorem rxStep_idle_or_keeps (lvl : Bool) (s : State) :
    (rxStep lvl s).rxState = .idle ∨ ((rxStep lvl s).edgeIe = s.edgeIe ∧ s.rxState ≠ .idle) := by
  cases hs : s.rxState with
  | idle => rw [rxStep_idle lvl hs]; exact .inl hs
  | reserved => rw [rxStep_reserved lvl hs]; simp
  | armedCountdown =>
    rw [rxStep_armed lvl hs]
    obtain ⟨-, h⟩ | h := rxArmed_cases lvl s <;> rw [h]
    · simp
    · simp [rxFirstSample]
  | receiving =>
    rw [rxStep_receiving lvl hs]
    cases hp : s.rxPhase with
    | false => rw [rxReceiving_gated lvl hp]; simp
    | true =>
      by_cases hb : s.rxBitcnt.toNat < 8
      · rw [rxReceiving_data lvl hp hb]; simp [rxDataBit]
      · rw [rxReceiving_stop lvl hp hb]; simp [rxStopBit, rxFrameDone]

theorem rxState_tickHandler (lvl : Bool) (s : State) : (tickHandler lvl s).rxState = (rxStep lvl s).rxState := by
  obtain ⟨y, p, d, sh, n, f, h⟩ := txStep_writes (rxStep lvl s)
  rw [State.rxState, tickHandler, service_status, service_status, h, setTxState_status, rxsOf_setTxs]
  rfl

theorem rxBitcnt_le_of_legal {s : State} (h : s.legal = true) : s.rxBitcnt.toNat ≤ 8 := by
  simp only [State.legal, Bool.and_eq_true, decide_eq_true_eq] at h
  tauto

/-- The edge handler writes `RXS` of the status word. -/
theorem edgeHandler_status (c : BitVec 16) (s : State) : ∃ x, (edgeHandler c s).status = setRxs s.status x := by
  by_cases hs : s.rxState = .idle
  · exact ⟨.armedCountdown, by rw [edgeHandler_idle c hs]; rfl⟩
  · exact ⟨s.rxState, by rw [edgeHandler_busy c hs]; exact congrArg State.status (setRxState_rxState s).symm⟩

/-! The obligations. -/

/-- Settles O51: the engines and the commands write other bits of the status word, and INITIALISE clears all. -/
theorem notInitClearedOnceByInitialise : Obligations.NotInitClearedOnceByInitialise := by
  intro i s t h
  have kept (e : t.notinit = s.notinit) : (s.notinit = false → t.notinit = false) ∧
      (s.notinit = true → t.notinit = false → ∃ idx, i = .initialise idx) := by
    simp +contextual [e]
  cases exec_effect h with
  | initDone ts => exact ⟨fun _ => (by decide : notinitOf 0x00 = false), fun _ _ => ⟨_, rfl⟩⟩
  | @tick lvl _ _ hl =>
    obtain ⟨x, y, hst⟩ := tickHandler_status lvl (rxBitcnt_le_of_legal hl)
    refine kept ?_
    rw [State.notinit, hst]
    split <;> simp [State.notinit]
  | @edgeTaken c =>
    obtain ⟨x, hst⟩ := edgeHandler_status c s
    exact kept (by rw [State.notinit, hst, notinitOf_setRxs]; rfl)
  | @edgeFire c =>
    obtain ⟨x, hst⟩ := edgeHandler_status c { s with edgePend := false }
    exact kept (by rw [State.notinit, hst, notinitOf_setRxs]; rfl)
  | clearOverflow => exact kept (notinitOf_clearRxovf _)
  | _ => exact kept (by simp [State.notinit])

/-- Settles O52: a TICK sets `RXOVF` exactly where it overflows, and two commands alone clear it. -/
theorem overflowFlagWriters : Obligations.OverflowFlagWriters := by
  intro i s t h
  have kept (e : t.rxovf = s.rxovf) :
      (s.rxovf = false → t.rxovf = true → i = .tick true ∧ frameEnds s = true ∧ s.cfg.capRx ≤ s.rxf.top.toNat) ∧
      (s.rxovf = true → t.rxovf = false → i = .clearOverflow ∨ ∃ idx, i = .initialise idx) := by
    rw [e]; exact ⟨fun h0 h1 => by simp [h0] at h1, fun h1 h0 => by simp [h1] at h0⟩
  cases exec_effect h with
  | initDone ts =>
    exact ⟨fun _ h1 => absurd h1 (by simp [State.rxovf, initialiseEffects, rxovfOf]), fun _ _ => .inr ⟨_, rfl⟩⟩
  | clearOverflow =>
    exact ⟨fun _ h1 => absurd h1 (by simp [State.rxovf]), fun _ _ => .inl rfl⟩
  | @tick lvl _ _ hl =>
    obtain ⟨x, y, hst⟩ := tickHandler_status lvl (rxBitcnt_le_of_legal hl)
    cases ho : overflows lvl s with
    | false => exact kept (by rw [State.rxovf, hst, ho]; simp [State.rxovf])
    | true =>
      have hset : (tickHandler lvl s).rxovf = true := by rw [State.rxovf, hst, ho]; simp
      simp only [overflows, Bool.and_eq_true, decide_eq_true_eq] at ho
      obtain ⟨⟨hf, rfl⟩, hfull⟩ := ho
      exact ⟨fun _ _ => ⟨rfl, hf, hfull⟩, fun _ h0 => absurd hset (by simp [h0])⟩
  | @edgeTaken c =>
    obtain ⟨x, hst⟩ := edgeHandler_status c s
    exact kept (by rw [State.rxovf, hst, rxovfOf_setRxs]; rfl)
  | @edgeFire c =>
    obtain ⟨x, hst⟩ := edgeHandler_status c { s with edgePend := false }
    exact kept (by rw [State.rxovf, hst, rxovfOf_setRxs]; rfl)
  | _ => exact kept (by simp [State.rxovf])

/-- Settles O56: the handler that arms the engine disables edges, and only the end of a frame enables them. -/
theorem edgesDisabledDuringFrame : Obligations.EdgesDisabledDuringFrame := by
  intro i s t h hi hs
  have edge (c : BitVec 16) (u : State) (hu : u.rxState ≠ .idle → u.edgeIe = false) :
      (edgeHandler c u).edgeIe = false := by
    by_cases hx : u.rxState = .idle
    · rw [edgeHandler_idle c hx]; rfl
    · rw [edgeHandler_busy c hx]; exact hu hx
  cases exec_effect h with
  | enableReceive => exact absurd rfl hi
  | disableReceive => exact fun _ => rfl
  | initDone ts => exact fun hx => absurd (by decide : rxsOf 0x00 = .idle) hx
  | @tick lvl =>
    rw [rxState_tickHandler, tickHandler, service_edgeIe, service_edgeIe, txStep_edgeIe]
    obtain hx | ⟨he, hx⟩ := rxStep_idle_or_keeps lvl s
    · exact fun hx' => absurd hx hx'
    · exact fun _ => he.trans (hs hx)
  | @edgeTaken c => exact fun _ => edge c s hs
  | @edgeFire c => exact fun _ => edge c { s with edgePend := false } hs
  | _ => simpa [State.rxState] using hs

/-- Settles O25: of the commands' effects none but INITIALISE's writes a field of the engines or the timer. -/
theorem commandsLeaveEnginesAlone : Obligations.CommandsLeaveEnginesAlone := by
  intro i s t hc hi h
  cases exec_effect h with
  | tick | edgeTaken | edgeLatched | edgeLost | edgeFire => cases hc
  | initRunning | initInterruptible | initNoStorage | initDone => exact absurd rfl (hi _)
  | clearOverflow =>
    have hr := reserved_clearRxovf s.status
    simpa [State.rxState, State.txState, State.notinit] using hr
  | _ => simp [State.rxState, State.txState, State.notinit, fifoWrite, unlock]

end Sys2Proof.Proofs
end

section
/-! PROOFS. Facts the run invariant rests on: the storage under a write, an append and a compaction
(41_fifo.md R135, R137), and the ranges of the timer's values (40_bitclock.md R110 to R118). -/

namespace Sys2Proof.Proofs

open Sys2Proof.Machine Sys2Proof.Safety Sys2Proof.Laws

/-! Storage. -/

/-- The loop of R137: each slot below `n` takes the byte above it, every other slot keeps its byte. -/
theorem read_shiftDown (m : Memory) (hm : m.wf = true) (n a : Nat) :
    (shiftDown m n).read a = if a < n then m.read (a + 1) else m.read a := by
  induction n generalizing a with
  | zero => simp [shiftDown]
  | succ n ih =>
    have hw : (shiftDown m n).wf = true := shiftDown_wf m n hm
    by_cases ha : a = n
    · subst ha
      simp [shiftDown, read_write_same _ _ _ hw, ih]
    · rw [shiftDown, read_write_other _ _ _ _ ha hw, ih]
      congr 1
      simp only [eq_iff_iff]
      omega

/-- A FIFO's storage is canonical and lists nothing from slot `cap` on, and its count is at most `cap` (R49, R60). -/
structure FifoFits (cap : Nat) (f : Fifo) : Prop where
  wf : f.data.wf = true
  bounds : ∀ a, cap ≤ a → f.data.read a = Memory.unlisted
  top : f.top.toNat ≤ cap

variable {cap : Nat} {f : Fifo}

/-- A store inside the capacity leaves the slots outside it unlisted. -/
theorem FifoFits.write (h : FifoFits cap f) {i : Nat} (hi : i < cap) (b : Byte) : FifoFits cap (fifoWrite f i b) where
  wf := fifoWrite_wf f i b h.wf
  bounds a ha := (read_write_other _ _ _ _ (by omega) h.wf).trans (h.bounds a ha)
  top := h.top

/-- The count of a FIFO below capacity can rise by one. -/
theorem FifoFits.push (h : FifoFits cap f) (hr : f.top.toNat < cap) : FifoFits cap { f with top := f.top + 1 } where
  wf := h.wf
  bounds := h.bounds
  top := by have : (f.top + 1).toNat ≤ f.top.toNat + 1 := by bv_omega
            exact this.trans hr

theorem FifoFits.compactFront (h : FifoFits cap f) : FifoFits cap (compactFront f) := by
  by_cases ht : f.top = 0
  · simpa [Machine.compactFront, ht] using h
  · have htop := h.top
    refine ⟨compactFront_wf f h.wf, fun a ha => ?_, ?_⟩
    · have : ¬ a < f.top.toNat - 1 := by omega
      simp only [Machine.compactFront, ht, if_false, read_shiftDown _ h.wf, this, h.bounds a ha]
    · rw [compactFront_top, if_neg ht]
      bv_omega

/-! The build. -/

theorem valid_capRx {cfg : Config} (h : cfg.valid = true) : 1 ≤ cfg.capRx ∧ cfg.capRx ≤ 255 := by
  simp only [Config.valid, Bool.and_eq_true, decide_eq_true_eq] at h
  tauto

theorem valid_capTx {cfg : Config} (h : cfg.valid = true) : 1 ≤ cfg.capTx ∧ cfg.capTx ≤ 255 := by
  simp only [Config.valid, Bool.and_eq_true, decide_eq_true_eq] at h
  tauto

theorem valid_prescalers_length {cfg : Config} (h : cfg.valid = true) : cfg.prescalers.length ≤ 8 := by
  simp only [Config.valid, Bool.and_eq_true, decide_eq_true_eq] at h
  tauto

theorem valid_threshAdmitted {cfg : Config} (h : cfg.valid = true) {i : Nat} (hi : i ∈ cfg.ratesEnabled) :
    threshAdmitted cfg i = true := by
  simp only [Config.valid, Bool.and_eq_true, List.all_eq_true] at h
  exact h.2 i hi

/-- What a timer setting is made of (R115, R117, R118). -/
theorem timerSetting_some {cfg : Config} {i : Nat} {ts : TimerSetting} (h : timerSetting cfg i = some ts) :
    ∃ p b, prescalerSel cfg = some ts.ps ∧ cfg.prescalers[ts.ps]? = some p ∧ cfg.rates[i]? = some b ∧
      i ∈ cfg.ratesEnabled ∧ ts.reload = reloadFor cfg.fClk p b ∧ ts.thresh = threshFor cfg i ts.reload := by
  unfold timerSetting at h
  split at h
  · cases h
  · rename_i k hk
    split at h
    · rename_i p b hp hb
      split at h
      · rename_i hi
        cases h
        exact ⟨p, b, hk, hp, hb, by simpa using hi, rfl, rfl⟩
      · cases h
    · cases h

/-- The prescaler chosen serves every enabled rate (R115). -/
theorem prescalerSel_serves {cfg : Config} {k p i : Nat} (hk : prescalerSel cfg = some k)
    (hp : cfg.prescalers[k]? = some p) (hi : i ∈ cfg.ratesEnabled) : prescalerServes cfg p i = true := by
  obtain ⟨hlt, hall, -⟩ := List.findIdx?_eq_some_iff_getElem.mp hk
  rw [List.getElem?_eq_getElem hlt, Option.some_inj] at hp
  subst hp
  exact List.all_eq_true.mp hall i hi

theorem width_bits_le (w : TimerWidth) : 2 ^ w.bits ≤ 2 ^ 16 := by cases w <;> decide

/-- The values INITIALISE programs fit the timer's registers (R42 to R44). -/
theorem timerSetting_fits {cfg : Config} (hv : cfg.valid = true) {i : Nat} {ts : TimerSetting}
    (h : timerSetting cfg i = some ts) : ts.ps < 2 ^ 3 ∧ ts.reload < 2 ^ 16 ∧ ts.thresh < 2 ^ 16 := by
  obtain ⟨p, b, hsel, hp, hb, hi, hr, -⟩ := timerSetting_some h
  have hw := width_bits_le cfg.width
  refine ⟨?_, ?_, ?_⟩
  · have := (List.getElem?_eq_some_iff.mp hp).1
    exact this.trans_le (valid_prescalers_length hv)
  · have hs := prescalerSel_serves hsel hp hi
    simp only [prescalerServes, hb, pairValid, Bool.and_eq_true, decide_eq_true_eq] at hs
    have : 0 < 2 ^ cfg.width.bits := by positivity
    omega
  · have ht := valid_threshAdmitted hv hi
    simp only [threshAdmitted, h, Bool.and_eq_true, decide_eq_true_eq] at ht
    exact ht.2.trans_le hw

end Sys2Proof.Proofs
end

section
/-! PROOFS. The invariant of a running link, grouped by what reads it, and that the event handlers keep it
(10_state.md R54; 42_rx_engine.md, 43_tx_engine.md, 45_events.md R260). -/

namespace Sys2Proof.Proofs

open Sys2Proof.Machine Sys2Proof.Safety Sys2Proof.Laws

/-! The invariant, in groups. -/

/-- The receiver's state, countdown and bit count fit each other (R54(a), (f), (g)). -/
structure RxFits (mode : RxCdMode) (x : RxState) (cd : BitVec 2) (n : BitVec 4) : Prop where
  legal : x ≠ .reserved
  cd : mode = .decrementThenTest → x = .armedCountdown → cd ≠ 0
  started : x = .receiving → 1 ≤ n.toNat
  le : n.toNat ≤ 8

/-- The transmitter's state, line level, byte and bit count fit each other and `TXF` (R54(h), (i), R197, R198). -/
structure TxFits (x : TxState) (d : Bool) (sh : BitVec 8) (n : BitVec 4) (f : Fifo) : Prop where
  started : x = .sendingData → 1 ≤ n.toNat
  zero : x = .sentStartBit → n = 0
  le : n.toNat ≤ 8
  pending : x ≠ .idle → 1 ≤ f.top.toNat
  front : x ≠ .idle → sh = f.data.read 0
  high : x = .idle ∨ x = .bufferLocked → d = true
  low : x = .sentStartBit → d = false
  data : x = .sendingData → d = frameBit sh n.toNat

/-- PUT_CHAR holds `TXF.LOCK` from PC3 to PC6: `holdsTxLock` of the command and its micro-step (R54(d)). -/
def holdsLock : Instr → FgStep → Bool
  | .putChar _, .pc3 => true
  | .putChar _, .pc4 => true
  | .putChar _, .pc5 => true
  | .putChar _, .pc6 => true
  | _, _ => false

theorem holdsTxLock_of_none {s : State} (h : s.fgOp = none) : holdsTxLock s = false := by
  simp [holdsTxLock, h]

theorem holdsTxLock_of_some {s : State} {i : Instr} (h : s.fgOp = some i) :
    holdsTxLock s = holdsLock i s.fgStep := by
  rw [holdsTxLock, h]
  cases i <;> cases s.fgStep <;> rfl

/-- `Inv` and `Started` of a state, the FIFOs' and the engines' clauses in groups. -/
structure Running (s : State) : Prop where
  build : s.cfg.valid = true
  reserved : s.status &&& 0x60 = 0
  edgePend : s.cfg.edgeLatch = .none → s.edgePend = false
  notinit : s.notinit = false
  gie : s.gie = true
  tmrRun : s.tmrRun = true
  tickIe : s.tickIe = true
  txdOe : s.txdOe = true
  timer : ∃ ts, timerSetting s.cfg s.rateSel.toNat = some ts ∧ s.tmrPs.toNat = ts.ps ∧
    s.tmrTop.toNat = ts.reload ∧ s.thresh.toNat = ts.thresh
  rxf : FifoFits s.cfg.capRx s.rxf
  txf : FifoFits s.cfg.capTx s.txf
  rx : RxFits s.cfg.rxCdMode s.rxState s.rxCd s.rxBitcnt
  tx : TxFits s.txState s.txd s.txShift s.txBitcnt s.txf
  rxLock : s.rxf.lock = false
  rxDirty : s.rxf.dirty = true → 1 ≤ s.rxf.top.toNat
  txDirty : s.txf.dirty = false
  txLock : s.txf.lock = holdsTxLock s
  step : ∀ i, s.fgOp = some i → restsAt i s.fgStep = true
  putChar : ∀ b, s.fgOp = some (.putChar b) → s.fgStep = .pc4 ∨ s.fgStep = .pc5 →
    s.fgT = s.txf.top ∧ s.fgT.toNat < s.cfg.capTx
  getChar : s.fgOp = some .getChar → s.fgStep = .gc2 ∨ s.fgStep = .gc3 → s.rxf.dirty = false
  getCharByte : s.fgOp = some .getChar → s.fgStep = .gc3 →
    1 ≤ s.rxf.top.toNat ∧ s.fgV = s.rxf.data.read 0

theorem running_of_inv {s : State} (h : Inv s) (hs : Started s) : Running s :=
  { h, hs with
    rxf := ⟨h.rxMem, h.rxBounds, hs.rxTop⟩
    txf := ⟨h.txMem, h.txBounds, hs.txTop⟩
    rx := ⟨hs.rxs, hs.rxCd, hs.rxBitcnt, hs.rxBitcntLegal⟩
    tx := ⟨hs.txBitcnt, hs.txBitcntStart, hs.txBitcntLegal, hs.txPending, hs.txFront, hs.txdHigh, hs.txdStart,
      hs.txdData⟩ }

theorem Running.started {s : State} (h : Running s) : Started s :=
  { h with
    rxs := h.rx.legal, rxTop := h.rxf.top, txTop := h.txf.top, rxCd := h.rx.cd, rxBitcnt := h.rx.started
    rxBitcntLegal := h.rx.le, txBitcnt := h.tx.started, txBitcntStart := h.tx.zero, txBitcntLegal := h.tx.le
    txPending := h.tx.pending, txFront := h.tx.front, txdHigh := h.tx.high, txdStart := h.tx.low
    txdData := h.tx.data }

theorem Running.inv {s : State} (h : Running s) : Inv s :=
  { h with
    rxMem := h.rxf.wf, txMem := h.txf.wf, rxBounds := h.rxf.bounds, txBounds := h.txf.bounds
    phase := .inr h.started }

variable {s : State}

/-! The receiver. -/

theorem RxFits.idle (mode : RxCdMode) (cd : BitVec 2) : RxFits mode .idle cd 0 := by
  constructor <;> simp

/-- The receiver's writes keep the invariant where its own fields fit. -/
theorem Running.writeRx (h : Running s) {x : RxState} {cd : BitVec 2} {n : BitVec 4}
    (hx : RxFits s.cfg.rxCdMode x cd n) (sh : BitVec 8) (p e : Bool) :
    Running ({ s with rxCd := cd, rxBitcnt := n, rxShift := sh, rxPhase := p, edgeIe := e }.setRxState x) :=
  { h with
    reserved := (reserved_setRxs s.status x).trans h.reserved
    notinit := (notinit_setRxState _ x).trans h.notinit
    rx := by rw [rxState_setRxState]; exact hx
    tx := by rw [txState_setRxState]; exact h.tx }

/-- `RXF` may be replaced where the byte GET_CHAR has read stays the front. -/
theorem Running.writeRxf (h : Running s) {f : Fifo} (hf : FifoFits s.cfg.capRx f) (hlock : f.lock = false)
    (hpop : f.dirty = true → s.rxf.dirty = true ∧ 1 ≤ f.top.toNat)
    (hfront : s.rxf.dirty = false → 1 ≤ s.rxf.top.toNat →
      1 ≤ f.top.toNat ∧ f.data.read 0 = s.rxf.data.read 0) :
    Running { s with rxf := f } :=
  { h with
    rxf := hf
    rxLock := hlock
    rxDirty := fun hd => (hpop hd).2
    getChar := fun ho hl => by
      have := h.getChar ho hl
      by_contra hd
      simp [(hpop (by simpa using hd)).1] at this
    getCharByte := fun ho hl => by
      obtain ⟨htop, hv⟩ := h.getCharByte ho hl
      obtain ⟨htop', hread⟩ := hfront (h.getChar ho (.inr hl)) htop
      exact ⟨htop', hv.trans hread.symm⟩ }

theorem Running.edgeHandler (h : Running s) (c : BitVec 16) : Running (edgeHandler c s) := by
  by_cases hs : s.rxState = .idle
  · rw [edgeHandler_idle c hs]
    have hcd : countdownFor c s.thresh ≠ 0 := by unfold countdownFor; split <;> decide
    exact h.writeRx ⟨by decide, fun _ _ => hcd, by simp, h.rx.le⟩ _ _ _
  · rwa [edgeHandler_busy c hs]

theorem Running.rxArmed (h : Running s) (lvl : Bool) : Running (rxArmed lvl s) := by
  obtain ⟨hcd, e⟩ | e := rxArmed_cases lvl s <;> rw [e]
  · exact { h with rx := { h.rx with cd := fun hm _ => hcd hm } }
  · exact h.writeRx (x := .receiving) ⟨by decide, by simp, fun _ => by decide, by decide⟩ _ _ _

theorem toNat_bitcnt_succ {n : BitVec 4} (hn : n.toNat < 8) : (n + 1).toNat = n.toNat + 1 := by bv_omega

theorem Running.rxDataBit (h : Running s) (lvl : Bool) (hn : s.rxBitcnt.toNat < 8) : Running (rxDataBit lvl s) :=
  have hsucc : (Machine.rxDataBit lvl s).rxBitcnt.toNat = s.rxBitcnt.toNat + 1 := toNat_bitcnt_succ hn
  { h with rx := { h.rx with started := fun _ => by omega, le := by omega } }

theorem Running.rxPush (h : Running s) : Running (rxPush s) := by
  obtain ⟨hr, e⟩ | ⟨-, e⟩ := fifoAppend_cases s.cfg.capRx s.rxf s.rxShift
  · have hcap := (valid_capRx h.build).2
    rw [Machine.rxPush, e]
    refine h.writeRxf ((h.rxf.write hr _).push hr) h.rxLock (fun hd => ⟨hd, ?_⟩) fun _ ht => ⟨?_, ?_⟩
    · bv_omega
    · bv_omega
    · exact read_write_other _ _ _ _ (by omega) h.rxf.wf
  · rw [Machine.rxPush, e]
    exact { h with
      reserved := (reserved_setRxovf s.status).trans h.reserved
      notinit := (notinitOf_setRxovf s.status).trans h.notinit
      rx := by simpa [State.rxState] using h.rx
      tx := by simpa [State.txState] using h.tx }

theorem Running.rxStopBit (h : Running s) (lvl : Bool) : Running (rxStopBit lvl s) := by
  have hf (u : State) (hu : Running u) : Running (rxFrameDone u) :=
    hu.writeRx (RxFits.idle _ _) _ _ _
  cases lvl with
  | false => exact hf s h
  | true => exact hf _ h.rxPush

theorem Running.rxReceiving (h : Running s) (lvl : Bool) : Running (rxReceiving lvl s) := by
  have hphase (p : Bool) : Running { s with rxPhase := p } := { h with }
  cases hp : s.rxPhase with
  | false => rw [rxReceiving_gated lvl hp]; exact hphase true
  | true =>
    by_cases hn : s.rxBitcnt.toNat < 8
    · rw [rxReceiving_data lvl hp hn]; exact (hphase false).rxDataBit lvl hn
    · rw [rxReceiving_stop lvl hp hn]; exact (hphase false).rxStopBit lvl

theorem Running.rxStep (h : Running s) (lvl : Bool) : Running (rxStep lvl s) := by
  cases hs : s.rxState with
  | idle => rwa [rxStep_idle lvl hs]
  | armedCountdown => rw [rxStep_armed lvl hs]; exact h.rxArmed lvl
  | receiving => rw [rxStep_receiving lvl hs]; exact h.rxReceiving lvl
  | reserved => rwa [rxStep_reserved lvl hs]

/-! The transmitter. -/

theorem TxFits.idle {n : BitVec 4} (hn : n.toNat ≤ 8) (sh : BitVec 8) (f : Fifo) : TxFits .idle true sh n f := by
  constructor <;> simp [hn]

/-- A byte at the front can be started: the start bit is low (R192). -/
theorem TxFits.start {f : Fifo} (hf : 1 ≤ f.top.toNat) : TxFits .sentStartBit false (f.data.read 0) 0 f := by
  constructor <;> simp [hf]

/-- The next data bit is bit period `n + 1` of the frame (R193, R194, R198). -/
theorem TxFits.nextBit {x : TxState} {d : Bool} {sh : BitVec 8} {n : BitVec 4} {f : Fifo} (h : TxFits x d sh n f)
    (hx : x ≠ .idle) (hn : n.toNat < 8) : TxFits .sendingData (bitOf sh n) sh (n + 1) f := by
  have hsucc := toNat_bitcnt_succ hn
  have hbit : bitOf sh n = frameBit sh (n.toNat + 1) := by
    simp [bitOf, frameBit, show n.toNat + 1 ≤ 8 from hn]
  exact
    { started := fun _ => by omega, zero := nofun, le := by omega
      pending := fun _ => h.pending hx, front := fun _ => h.front hx
      high := by simp, low := nofun, data := fun _ => by rw [hsucc, hbit] }

/-- The stop bit is high while the compaction waits (R195, R196). -/
theorem TxFits.locked {x : TxState} {d : Bool} {sh : BitVec 8} {n : BitVec 4} {f : Fifo} (h : TxFits x d sh n f)
    (hx : x ≠ .idle) : TxFits .bufferLocked true sh n f := by
  constructor <;> simp [h.le, h.pending hx, ← h.front hx]

/-- The transmitter's writes keep the invariant where its own fields fit. -/
theorem Running.writeTx (h : Running s) {x : TxState} {d : Bool} {sh : BitVec 8} {n : BitVec 4}
    (hx : TxFits x d sh n s.txf) (p : Bool) :
    Running ({ s with txd := d, txShift := sh, txBitcnt := n, txPhase := p }.setTxState x) :=
  { h with
    reserved := (reserved_setTxs s.status x).trans h.reserved
    notinit := (notinit_setTxState _ x).trans h.notinit
    rx := by rw [rxState_setTxState]; exact h.rx
    tx := by rw [txState_setTxState]; exact hx }

/-- With `TXF.LOCK` free no PUT_CHAR is at PC4 or PC5 (R141). -/
theorem Running.not_storing (h : Running s) (hfree : s.txf.lock = false) {b : Byte}
    (ho : s.fgOp = some (.putChar b)) : ¬ (s.fgStep = .pc4 ∨ s.fgStep = .pc5) := by
  have hk := h.txLock.symm.trans hfree
  rw [holdsTxLock_of_some ho] at hk
  rintro (hl | hl) <;> rw [hl] at hk <;> cases hk

/-- The compaction attempt, the line driven high: with the lock free the front leaves, and no PUT_CHAR is between
reading and writing the count (R141, R195, R196). -/
theorem Running.txCompact (h : Running s) (hx : s.txState ≠ .idle) :
    Running (txCompact .bufferLocked { s with txd := true }) := by
  obtain ⟨hfree, e⟩ | ⟨-, e⟩ := txCompact_cases .bufferLocked { s with txd := true }
  · have hidle : Running ({ s with txd := true }.setTxState .idle) :=
      h.writeTx (TxFits.idle h.tx.le s.txShift s.txf) s.txPhase
    have hfits := h.txf.compactFront
    rw [e, compactFront_with s.txf true s.txf.dirty]
    exact { hidle with
      txf := ⟨hfits.wf, hfits.bounds, hfits.top⟩
      tx := by rw [txState_setTxState]; exact TxFits.idle h.tx.le _ _
      txDirty := h.txDirty
      txLock := hfree.symm.trans h.txLock
      putChar := fun b ho hl => absurd hl (h.not_storing hfree ho) }
  · rw [e]
    exact h.writeTx (h.tx.locked hx) s.txPhase

theorem Running.txAct (h : Running s) : Running (txAct s) := by
  cases hs : s.txState with
  | idle =>
    rw [txAct_idle hs]
    by_cases hp : 1 ≤ s.txf.top.toNat
    · rw [txIdle_pending hp]; exact h.writeTx (TxFits.start hp) s.txPhase
    · rwa [txIdle_empty hp]
  | sentStartBit =>
    rw [txAct_sentStartBit hs]
    have hz := h.tx.zero hs
    have hbit : TxFits .sendingData (bitOf s.txShift 0) s.txShift (s.txBitcnt + 1) s.txf := by
      simpa [hz] using h.tx.nextBit (by simp [hs]) (by simp [hz])
    exact h.writeTx hbit s.txPhase
  | sendingData =>
    rw [txAct_sendingData hs]
    by_cases hn : s.txBitcnt.toNat < 8
    · rw [txSending_bit hn]
      have hbit := h.tx.nextBit (by simp [hs]) hn
      exact { h with tx := by rw [← hs] at hbit; exact hbit }
    · rw [txSending_stop hn]; exact h.txCompact (by simp [hs])
  | bufferLocked =>
    have hd : { s with txd := true } = s := by rw [← h.tx.high (.inr hs)]
    have := h.txCompact (by simp [hs])
    rwa [hd, ← txAct_bufferLocked hs] at this

theorem Running.txStep (h : Running s) : Running (txStep s) := by
  cases hp : s.txPhase with
  | false => rw [txStep_gated hp]; exact { h with }
  | true =>
    rw [txStep_acting hp]
    exact Running.txAct { h with }

/-! The tick. -/

theorem Running.serviceRx (h : Running s) : Running (service .rx s) := by
  obtain ⟨hd, -, e⟩ | ⟨-, e⟩ := serviceFifo_cases s.rxf
  · have hfits := h.rxf.compactFront
    have : Running { s with rxf := { compactFront s.rxf with lock := false, dirty := false } } :=
      h.writeRxf ⟨hfits.wf, hfits.bounds, hfits.top⟩ rfl (by simp) (by simp [hd])
    rw [← e] at this
    exact this
  · rw [show service .rx s = s from by simp only [service, fifo_rx, e]; rfl]
    exact h

theorem Running.serviceTx (h : Running s) : Running (service .tx s) := by
  have e : service .tx s = s := by
    simp [service, serviceFifo, h.txDirty]; rfl
  rwa [e]

theorem Running.tickHandler (h : Running s) (lvl : Bool) : Running (tickHandler lvl s) :=
  (h.rxStep lvl).txStep.serviceRx.serviceTx

end Sys2Proof.Proofs
end

section
/-! PROOFS. Every step keeps the run invariant and finds legal values (10_state.md R54; 44_facade.md R220 to R234). -/

namespace Sys2Proof.Proofs

open Sys2Proof.Machine Sys2Proof.Safety Sys2Proof.Laws

variable {s t : State} {i : Instr} {first l m : FgStep}

/-! The foreground of a running link. -/

/-- The micro-step about to run says whether `TXF.LOCK` is held (R141): a command is taken with it free. -/
theorem Running.lock_of_runsAt (h : Running s) (hl : RunsAt i first l s) (hfirst : holdsLock i first = false) :
    s.txf.lock = holdsLock i l := by
  obtain ⟨ho, -, rfl⟩ | ⟨ho, rfl⟩ := hl
  · rw [h.txLock, holdsTxLock_of_none ho, hfirst]
  · rw [h.txLock, holdsTxLock_of_some ho]

/-- The foreground goes to a micro-step where a command can rest, with the locals and the lock it needs there. -/
theorem Running.goTo_with (h : Running s) (t v : BitVec 8) (acc : Bool) (hrest : restsAt i l = true)
    (hput : l = .pc4 ∨ l = .pc5 → t = s.txf.top ∧ t.toNat < s.cfg.capTx := by simp)
    (hget : l = .gc2 ∨ l = .gc3 → s.rxf.dirty = false := by simp)
    (hbyte : l = .gc3 → 1 ≤ s.rxf.top.toNat ∧ v = s.rxf.data.read 0 := by simp) :
    Running (goTo i l { s with
      fgT := t, fgV := v, fgAcc := acc, txf := { s.txf with lock := holdsLock i l } }) :=
  { h with
    txf := ⟨h.txf.wf, h.txf.bounds, h.txf.top⟩
    tx := { h.tx with }
    txLock := (holdsTxLock_of_some (s := Machine.goTo i l s) rfl).symm
    step := fun j hj => by cases hj; exact hrest
    putChar := fun _ _ hl => hput hl
    getChar := fun _ hl => hget hl
    getCharByte := fun _ hl => hbyte hl }

theorem lock_eta {f : Fifo} {k : Bool} (h : f.lock = k) : { f with lock := k } = f := by rw [← h]

/-- `goTo_with` from micro-step `m`, where the lock already is what micro-step `l` needs. -/
theorem Running.goTo (h : Running s) (hm : RunsAt i first m s) (t v : BitVec 8) (acc : Bool)
    (hrest : restsAt i l = true)
    (hput : l = .pc4 ∨ l = .pc5 → t = s.txf.top ∧ t.toNat < s.cfg.capTx := by simp)
    (hget : l = .gc2 ∨ l = .gc3 → s.rxf.dirty = false := by simp)
    (hbyte : l = .gc3 → 1 ≤ s.rxf.top.toNat ∧ v = s.rxf.data.read 0 := by simp)
    (hlock : holdsLock i first = false ∧ holdsLock i m = holdsLock i l := by exact ⟨rfl, rfl⟩) :
    Running (goTo i l { s with fgT := t, fgV := v, fgAcc := acc }) := by
  have := h.goTo_with t v acc hrest hput hget hbyte
  rwa [lock_eta ((h.lock_of_runsAt hm hlock.1).trans hlock.2)] at this

/-- The foreground delivers a result and is idle, `TXF.LOCK` released (R134, R220). -/
theorem Running.finish_unlocked (h : Running s) (l : FgStep) (t : BitVec 8) (v : BitVec 16) :
    Running (deliver v { s with fgStep := l, fgT := t, txf := unlock s.txf }) :=
  { h with
    txf := ⟨h.txf.wf, h.txf.bounds, h.txf.top⟩
    tx := { h.tx with }
    txLock := rfl
    step := nofun
    putChar := nofun
    getChar := nofun
    getCharByte := nofun }

/-- `finish_unlocked` from a micro-step that does not hold the lock. -/
theorem Running.finish (h : Running s) (hm : RunsAt i first m s) (l : FgStep) (t : BitVec 8) (v : BitVec 16)
    (hlock : holdsLock i first = false ∧ holdsLock i m = false := by exact ⟨rfl, rfl⟩) :
    Running (deliver v { s with fgStep := l, fgT := t }) := by
  have := h.finish_unlocked l t v
  rwa [show unlock s.txf = s.txf from lock_eta ((h.lock_of_runsAt hm hlock.1).trans hlock.2)] at this

theorem Running.raiseFault (h : Running s) (c : FaultCode) : Running (raiseFault c s) := by
  unfold Machine.raiseFault
  split
  · exact { h with }
  · exact h

/-! PUT_CHAR and GET_CHAR past their first micro-step. -/

theorem RunsAt.inFlight (hl : RunsAt i first l s) (hne : l ≠ first) : s.fgOp = some i ∧ s.fgStep = l := by
  obtain ⟨-, -, rfl⟩ | ⟨ho, rfl⟩ := hl
  · exact absurd rfl hne
  · exact ⟨ho, rfl⟩

/-- PC4 stores at the count, which is not the front of a frame being sent (R69, R225). -/
theorem Running.storeByte (h : Running s) {b : Byte} (hl : RunsAt (.putChar b) .pc1 .pc4 s) :
    Running { s with txf := fifoWrite s.txf s.fgT.toNat b } := by
  obtain ⟨ho, hstep⟩ := hl.inFlight (by decide)
  obtain ⟨ht, hroom⟩ := h.putChar b ho (.inl hstep)
  exact { h with
    txf := h.txf.write hroom b
    tx := { h.tx with
      front := fun hx => by
        have hp := h.tx.pending hx
        rw [← ht] at hp
        exact (h.tx.front hx).trans (read_write_other _ _ _ _ (by omega) h.txf.wf).symm } }

/-- PC5 counts the byte stored (R225). -/
theorem Running.countByte (h : Running s) {b : Byte} (hl : RunsAt (.putChar b) .pc1 .pc5 s) :
    Running (Machine.goTo (.putChar b) .pc6 { s with txf := { s.txf with top := s.fgT + 1 }, fgAcc := true }) := by
  obtain ⟨ho, hstep⟩ := hl.inFlight (by decide)
  obtain ⟨ht, hroom⟩ := h.putChar b ho (.inr hstep)
  have hcap := (valid_capTx h.build).2
  have hgo : Running (Machine.goTo (.putChar b) .pc6 { s with fgAcc := true }) :=
    h.goTo hl s.fgT s.fgV true rfl
  exact { hgo with
    txf := by rw [ht] at hroom ⊢; exact h.txf.push hroom
    tx := { h.tx with pending := fun _ => show 1 ≤ (s.fgT + 1).toNat by bv_omega }
    putChar := fun _ _ hp => by simp at hp }

/-- GC3 marks the front for removal; the byte read at GC2 is still there (R228). -/
theorem Running.popByte (h : Running s) (hl : RunsAt .getChar .gc1 .gc3 s) (v : BitVec 16) :
    Running (deliver v { s with rxf := { s.rxf with dirty := true } }) := by
  obtain ⟨ho, hstep⟩ := hl.inFlight (by decide)
  have hdone : Running (deliver v s) := h.finish hl s.fgStep s.fgT v
  exact { hdone with
    rxf := ⟨h.rxf.wf, h.rxf.bounds, h.rxf.top⟩
    rxDirty := fun _ => (h.getCharByte ho hstep).1
    getChar := nofun }

/-! The operations. -/

/-- Every effect of an operation keeps a link running. -/
theorem Running.effect (h : Running s) (he : Effect i s t) : Running t := by
  cases he with
  | rejected | initInterruptible | gc2Empty => exact h.raiseFault _
  | initNoStorage _ hr | initDone _ _ hr => exact absurd h.tmrRun (by simp [hr])
  | nop hl | initRunning hl | dp1Empty hl | dp3 hl | readStatus hl => exact h.finish hl _ _ _
  | pc1Held hl | pc1Free hl | pc2Held hl | pc3Full hl | dp1Some hl | dp2Held hl | dp2Free hl | gc1Held hl =>
    exact h.goTo hl _ _ _ rfl
  | pc2Taken => exact h.goTo_with (l := .pc3) _ _ _ rfl
  | pc3Room hl hroom => exact h.goTo hl _ _ _ rfl fun _ => ⟨rfl, hroom⟩
  | pc4 hl =>
    obtain ⟨ho, hstep⟩ := hl.inFlight (by decide)
    exact (h.storeByte hl).goTo hl _ _ _ rfl fun _ => h.putChar _ ho (.inl hstep)
  | pc5 hl => exact h.countByte hl
  | pc6 => exact h.finish_unlocked _ _ _
  | gc1Free hl hd => exact h.goTo hl _ _ _ rfl (hget := fun _ => hd)
  | gc2Some hl htop =>
    obtain ⟨ho, hstep⟩ := hl.inFlight (by decide)
    exact h.goTo hl _ _ _ rfl (hget := fun _ => h.getChar ho (.inl hstep))
      (hbyte := fun _ => ⟨by bv_omega, rfl⟩)
  | gc3 hl => exact h.popByte hl _
  | enableReceive hl =>
    exact Running.finish (s := { s with edgeIe := true }) { h with } hl _ _ _
  | disableReceive hl =>
    exact Running.finish (s := { s with edgeIe := false }) { h with } hl _ _ _
  | clearOverflow hl =>
    exact { h.finish hl .co1 s.fgT 0 with
      reserved := (reserved_clearRxovf s.status).trans h.reserved
      notinit := (notinitOf_clearRxovf s.status).trans h.notinit
      rx := by simpa [State.rxState] using h.rx
      tx := by simpa [State.txState] using h.tx }
  | tick => exact h.tickHandler _
  | edgeTaken => exact h.edgeHandler _
  | edgeLatched _ hlatch => exact { h with edgePend := fun hn => by simp [hlatch] at hn }
  | edgeLost => exact h
  | edgeFire => exact Running.edgeHandler (s := { s with edgePend := false }) { h with edgePend := fun _ => rfl } _

/-! Before INITIALISE. -/

theorem notinit_of_unstarted (h : Unstarted s) : s.notinit = true := by
  rw [State.notinit, h.status]; decide

/-- Before INITIALISE no command that needs the link runs a micro-step (R221). -/
theorem not_runsAt_of_unstarted (h : Unstarted s) (hi : needsLink i = true) : ¬ RunsAt i first l s := by
  intro hl
  obtain ⟨-, hn, -⟩ | ⟨ho, -⟩ := hl
  · simp [hi, notinit_of_unstarted h] at hn
  · simp [h.fgIdle] at ho

/-- A result delivered before INITIALISE changes nothing the phase reads. -/
theorem inv_deliver_of_unstarted (h : Inv s) (hu : Unstarted s) (l : FgStep) (v : BitVec 16) :
    Inv (deliver v { s with fgStep := l }) :=
  { h with phase := .inl { hu with fgIdle := rfl } }

theorem inv_raiseFault (h : Inv s) (c : FaultCode) : Inv (raiseFault c s) := by
  unfold Machine.raiseFault
  split
  · exact { h with phase := h.phase.imp (fun hu => { hu with }) (fun hs => { hs with }) }
  · exact h

/-- INITIALISE starts the link: the storage stays, the rest is as R224 lists it. -/
theorem running_initialised (h : Inv s) {idx : BitVec 3} {ts : TimerSetting}
    (hts : timerSetting s.cfg idx.toNat = some ts) :
    Running (deliverFrom .i1 0 (initialiseEffects idx ts s)) := by
  obtain ⟨hps, hreload, hthresh⟩ := timerSetting_fits h.build hts
  have hrx : (deliverFrom .i1 0 (initialiseEffects idx ts s)).rxState = .idle := (by decide : rxsOf 0x00 = .idle)
  have htx : (deliverFrom .i1 0 (initialiseEffects idx ts s)).txState = .idle := (by decide : txsOf 0x00 = .idle)
  exact
    { build := h.build
      reserved := (by decide : (0x00 : BitVec 8) &&& 0x60 = 0)
      edgePend := fun _ => rfl
      notinit := (by decide : notinitOf 0x00 = false)
      gie := rfl
      tmrRun := rfl
      tickIe := rfl
      txdOe := rfl
      timer := ⟨ts, hts, Nat.mod_eq_of_lt hps, Nat.mod_eq_of_lt hreload, Nat.mod_eq_of_lt hthresh⟩
      rxf := ⟨h.rxMem, h.rxBounds, Nat.zero_le _⟩
      txf := ⟨h.txMem, h.txBounds, Nat.zero_le _⟩
      rx := by rw [hrx]; exact RxFits.idle _ _
      tx := by rw [htx]; exact TxFits.idle (n := 0) (by decide) _ _
      rxLock := rfl
      rxDirty := nofun
      txDirty := rfl
      txLock := rfl
      step := nofun
      putChar := nofun
      getChar := nofun
      getCharByte := nofun }

theorem inv_effect_of_unstarted (h : Inv s) (hu : Unstarted s) (he : Effect i s t) : Inv t := by
  cases he with
  | rejected | initInterruptible => exact inv_raiseFault h _
  | nop | initRunning | initNoStorage | readStatus => exact inv_deliver_of_unstarted h hu _ _
  | initDone ts _ _ _ hts => exact (running_initialised h hts).inv
  | tick hr => simp [State.tickReady, hu.tickIe] at hr
  | edgeTaken hr => simp [State.edgeReady, hu.edgeIe] at hr
  | edgeFire hr => simp [State.edgeFireReady, hu.edgeIe] at hr
  | edgeLatched _ hlatch =>
    exact { h with edgePend := fun hn => by simp [hlatch] at hn, phase := .inl { hu with } }
  | edgeLost => exact h
  | pc1Held hl | pc1Free hl | pc2Held hl | pc2Taken hl | pc3Full hl | pc3Room hl | pc4 hl | pc5 hl | pc6 hl
  | dp1Empty hl | dp1Some hl | dp2Held hl | dp2Free hl | dp3 hl | gc1Held hl | gc1Free hl | gc2Empty hl
  | gc2Some hl | gc3 hl | enableReceive hl | disableReceive hl | clearOverflow hl =>
    exact absurd hl (not_runsAt_of_unstarted hu rfl)

theorem inv_effect (h : Inv s) (he : Effect i s t) : Inv t := by
  obtain hu | hs := h.phase
  · exact inv_effect_of_unstarted h hu he
  · exact ((running_of_inv h hs).effect he).inv

/-- The environment's lists and draw are no part of the invariant. -/
theorem inv_environment (h : Inv s) (script : List Turn) (port : List HostCommand) (draw : Bool) :
    Inv { s with script := script, cmdPort := port, storageOk := draw } :=
  { h with phase := h.phase.imp (fun hu => { hu with }) (fun hs => { hs with }) }

/-! Legal values. -/

/-- A micro-step that runs in a state of the invariant is the first of its command, or one where the command, in
flight on a running link, can rest. -/
theorem first_or_rests_of_runsAt (h : Inv s) (hl : RunsAt i first l s) :
    l = first ∨ (restsAt i l = true ∧ Running s) := by
  obtain ⟨-, -, rfl⟩ | ⟨ho, rfl⟩ := hl
  · exact .inl rfl
  · obtain hu | hs := h.phase
    · simp [hu.fgIdle] at ho
    · exact .inr ⟨hs.step i ho, running_of_inv h hs⟩

/-- A command finds legal values where its micro-steps do. -/
theorem foregroundStep_legal {body : FgStep → State → Host.Outcome State Fault Refusal}
    (hbody : ∀ l, RunsAt i first l s → body l s ≠ .fault .illegalState) :
    foregroundStep i first body s ≠ .fault .illegalState := by
  unfold foregroundStep
  split
  · simp
  · split
    · simp
    · split
      · rename_i ho
        split
        · simp
        · split
          · simp
          · rename_i hn
            exact hbody first (.inl ⟨ho, by simpa using hn, rfl⟩)
      · rename_i j ho
        split
        · rename_i hj
          subst hj
          exact hbody s.fgStep (.inr ⟨ho, rfl⟩)
        · simp

theorem eventStep_legal {body : State → Host.Outcome State Fault Refusal} (hbody : body s ≠ .fault .illegalState) :
    eventStep i body s ≠ .fault .illegalState := by
  unfold eventStep
  split
  · simp
  · split
    · exact hbody
    · simp

theorem Running.legal (h : Running s) : s.legal = true := by
  have hz := h.tx.zero
  simp only [State.legal, topLegal, Bool.and_eq_true, decide_eq_true_eq]
  exact ⟨⟨⟨⟨⟨⟨⟨h.rx.legal, h.rx.le⟩, h.tx.le⟩, fun hs => by simp [hz hs]⟩, h.rx.cd⟩, h.rxf.top⟩, h.txf.top⟩,
    (valid_capTx h.build).1⟩

/-- A command of one micro-step finds legal values where that micro-step does. -/
theorem foregroundStep_legal_of_single {body : FgStep → State → Host.Outcome State Fault Refusal} (h : Inv s)
    (hrest : ∀ l, restsAt i l = false) (hbody : body first s ≠ .fault .illegalState) :
    foregroundStep i first body s ≠ .fault .illegalState :=
  foregroundStep_legal fun l hl => by
    obtain rfl | ⟨hr, -⟩ := first_or_rests_of_runsAt h hl
    · exact hbody
    · simp [hrest] at hr

theorem initialiseI1_legal (idx : BitVec 3) (s : State) : initialiseI1 idx s ≠ .fault .illegalState := by
  unfold initialiseI1
  repeat' split
  all_goals simp

/-- The slot PUT_CHAR stores to and counts exists (R54, R225). -/
theorem Running.slotExists_of_storing (h : Running s) {b : Byte} (hm : RunsAt (.putChar b) .pc1 m s)
    (hs : m = .pc4 ∨ m = .pc5) : s.slotExists .tx s.fgT.toNat = true := by
  obtain ⟨ho, hstep⟩ := hm.inFlight (by rintro rfl; simp at hs)
  exact decide_eq_true (h.putChar b ho (by rwa [hstep])).2

theorem execPutChar_legal (h : Inv s) (b : Byte) : execPutChar b s ≠ .fault .illegalState :=
  foregroundStep_legal fun l hl => by
    obtain rfl | ⟨hr, hrun⟩ := first_or_rests_of_runsAt h hl
    · simp
    · cases l
      case pc4 => simp [hrun.slotExists_of_storing hl (.inl rfl)]
      case pc5 => simp [hrun.slotExists_of_storing hl (.inr rfl)]
      all_goals simp [restsAt] at hr ⊢

theorem execDataPending_legal (h : Inv s) : execDataPending s ≠ .fault .illegalState :=
  foregroundStep_legal fun l hl => by
    obtain rfl | ⟨hr, -⟩ := first_or_rests_of_runsAt h hl
    · simp
    · cases l <;> simp [restsAt] at hr ⊢

theorem execGetChar_legal (h : Inv s) : execGetChar s ≠ .fault .illegalState :=
  foregroundStep_legal fun l hl => by
    obtain rfl | ⟨hr, -⟩ := first_or_rests_of_runsAt h hl
    · simp
    · cases l
      case gc2 =>
        have hslot : s.slotExists .rx 0 = true := decide_eq_true (valid_capRx h.build).1
        simp [hslot]
      all_goals simp [restsAt] at hr ⊢

theorem execTick_legal (h : Inv s) (lvl : Bool) : execTick lvl s ≠ .fault .illegalState :=
  eventStep_legal <| by
    obtain hu | hs := h.phase
    · simp [State.tickReady, hu.tickIe]
    · simp only [(running_of_inv h hs).legal]
      split <;> simp

/-- No operation of a state of the invariant finds a field outside its legal values. -/
theorem exec_legal (h : Inv s) (i : Instr) : exec i s ≠ .fault .illegalState := by
  cases i with
  | nop => exact (foregroundStep_legal_of_single h (fun _ => rfl) (by simp) : execNop s ≠ _)
  | initialise idx =>
    exact (foregroundStep_legal_of_single h (fun _ => rfl) (initialiseI1_legal idx s) : execInitialise idx s ≠ _)
  | putChar b => exact execPutChar_legal h b
  | dataPending => exact execDataPending_legal h
  | getChar => exact execGetChar_legal h
  | enableReceive => exact (foregroundStep_legal_of_single h (fun _ => rfl) (by simp) : execEnableReceive s ≠ _)
  | disableReceive => exact (foregroundStep_legal_of_single h (fun _ => rfl) (by simp) : execDisableReceive s ≠ _)
  | readStatus => exact (foregroundStep_legal_of_single h (fun _ => rfl) (by simp) : execReadStatus s ≠ _)
  | clearOverflow => exact (foregroundStep_legal_of_single h (fun _ => rfl) (by simp) : execClearOverflow s ≠ _)
  | tick lvl => exact execTick_legal h lvl
  | edge c =>
    refine (eventStep_legal ?_ : execEdge c s ≠ _)
    repeat' split
    all_goals simp
  | edgeFire c =>
    refine (eventStep_legal ?_ : execEdgeFire c s ≠ _)
    repeat' split
    all_goals simp

/-! The step. -/

/-- A turn runs an operation in a state that differs in the environment's lists and draw alone, or is settled
without finding an illegal value. -/
theorem fetchForeground_cases (s : State) :
    (∃ i port draw, fetchForeground s = .run i { s with cmdPort := port, storageOk := draw }) ∨
    ∃ o, fetchForeground s = .done o ∧ o ≠ .fault .illegalState := by
  unfold fetchForeground
  split
  · exact .inl ⟨_, s.cmdPort, s.storageOk, rfl⟩
  · split
    · exact .inr ⟨_, rfl, by simp⟩
    · rename_i c rest _
      dsimp only
      split
      · exact .inl ⟨_, rest, c.storageOk, rfl⟩
      · split
        · exact .inr ⟨_, rfl, by simp⟩
        · exact .inr ⟨_, rfl, by simp⟩

theorem fetchEvent_cases (w : Word) (s : State) :
    (∃ i, fetchEvent w s = .run i s) ∨ ∃ o, fetchEvent w s = .done o ∧ o ≠ .fault .illegalState := by
  unfold fetchEvent
  split
  · exact .inl ⟨_, rfl⟩
  · exact .inr ⟨_, rfl, by simp⟩

/-- What a step can be: an operation in a state that differs in the environment's lists and draw alone, or an
outcome settled without finding an illegal value. -/
theorem fetch_cases (s : State) :
    (∃ i script port draw, fetch s = .run i { s with script := script, cmdPort := port, storageOk := draw }) ∨
    ∃ o, fetch s = .done o ∧ o ≠ .fault .illegalState := by
  unfold fetch
  split
  · exact .inr ⟨_, rfl, by simp⟩
  · split
    · exact .inr ⟨_, rfl, by simp⟩
    · split
      · obtain ⟨i, port, draw, e⟩ | hd := fetchForeground_cases s
        · exact .inl ⟨i, s.script, port, draw, e⟩
        · exact .inr hd
      · rename_i rest _
        obtain ⟨i, port, draw, e⟩ | hd := fetchForeground_cases { s with script := rest }
        · exact .inl ⟨i, rest, port, draw, e⟩
        · exact .inr hd
      · rename_i w rest _
        obtain ⟨i, e⟩ | hd := fetchEvent_cases w { s with script := rest }
        · exact .inl ⟨i, rest, s.cmdPort, s.storageOk, e⟩
        · exact .inr hd

/-! The obligations. -/

/-- Settles O14: each effect of an operation keeps the invariant, and the environment's part is not in it. -/
theorem stepKeepsInvariant : Obligations.StepKeepsInvariant := by
  intro s t h hstep
  obtain ⟨-, -, script, port, draw, ⟨i, he⟩ | ⟨-, rfl⟩⟩ := step_cases hstep
  · exact inv_effect (inv_environment h script port draw) (exec_effect he)
  · exact inv_raiseFault (inv_environment h script port draw) _

/-- Settles O15: a command in flight rests at one of its micro-steps, its slot exists, and a TICK finds `legal`. -/
theorem legalValuesNeverLeft : Obligations.LegalValuesNeverLeft := by
  intro s h
  obtain ⟨i, script, port, draw, e⟩ | ⟨o, e, ho⟩ := fetch_cases s
  · simp only [step, e]
    exact exec_legal (inv_environment h script port draw) i
  · simpa only [step, e] using ho

/-- Settles O13: reset leaves the storages empty and the link down, whatever the build. -/
theorem resetMeetsInvariant : Obligations.ResetMeetsInvariant := by
  refine ⟨by decide, fun cfg hv => ?_⟩
  exact
    { build := hv
      reserved := (by decide : (0x80 : BitVec 8) &&& 0x60 = 0)
      edgePend := fun _ => rfl
      rxMem := rfl
      txMem := rfl
      rxBounds := fun _ _ => rfl
      txBounds := fun _ _ => rfl
      phase := .inl ⟨rfl, rfl, rfl, rfl, rfl, rfl, rfl⟩ }

end Sys2Proof.Proofs
end

section
/-! PROOFS. Who writes the FIFOs: PUT_CHAR stores one slot, the receiver appends, the transmitter and the service
compact; nothing else touches a byte of either storage (20_memory.md R61, R62, R68, R69). -/

namespace Sys2Proof.Proofs

open Sys2Proof.Machine Sys2Proof.Safety Sys2Proof.Laws

variable {s : State}

/-! What a tick makes of the FIFOs. -/

/-- The receiver leaves `RXF` alone, or appends the byte received to it (R68, R135). -/
theorem rxStep_rxf (lvl : Bool) (s : State) : (rxStep lvl s).rxf = s.rxf ∨
    fifoAppend s.cfg.capRx s.rxf s.rxShift = some (rxStep lvl s).rxf := by
  cases hs : s.rxState with
  | idle => exact .inl (by rw [rxStep_idle lvl hs])
  | reserved => exact .inl (by rw [rxStep_reserved lvl hs])
  | armedCountdown =>
    rw [rxStep_armed lvl hs]
    obtain ⟨-, h⟩ | h := rxArmed_cases lvl s
    · exact .inl (by rw [h])
    · exact .inl (by rw [h]; rfl)
  | receiving =>
    rw [rxStep_receiving lvl hs]
    cases hp : s.rxPhase with
    | false => exact .inl (by rw [rxReceiving_gated lvl hp])
    | true =>
      by_cases hb : s.rxBitcnt.toNat < 8
      · exact .inl (by rw [rxReceiving_data lvl hp hb]; rfl)
      · rw [rxReceiving_stop lvl hp hb]
        cases lvl with
        | false => exact .inl rfl
        | true =>
          obtain ⟨-, h⟩ | ⟨-, h⟩ := fifoAppend_cases s.cfg.capRx s.rxf s.rxShift
          · exact .inr (by simp [rxStopBit, rxFrameDone, rxPush, h])
          · exact .inl (by simp [rxStopBit, rxFrameDone, rxPush, h])

/-- Taking and giving back a free lock around `compact_front` leaves no trace of it (R131, R132). -/
theorem unlock_compactFront_locked {f : Fifo} (h : f.lock = false) :
    unlock (compactFront { f with lock := true }) = compactFront f := by
  rw [compactFront_with f true f.dirty, unlock, ← compactFront_dirty]
  exact lock_eta ((compactFront_lock f).trans h)

/-- With the lock free the compaction attempt of the transmitter removes the front of `TXF`, else it leaves `TXF`
alone (R195, R196). -/
theorem txCompact_txf (locked : TxState) (s : State) :
    (txCompact locked s).txf = if s.txf.lock then s.txf else compactFront s.txf := by
  obtain ⟨hk, h⟩ | ⟨hk, h⟩ := txCompact_cases locked s
  · rw [h, hk]; exact unlock_compactFront_locked hk
  · rw [h, hk]; rfl

/-- The transmitter stands where its acting tick attempts the compaction: all bits sent, or `BUFFER_LOCKED`. -/
def atCompaction (s : State) : Bool :=
  (decide (s.txState = .sendingData) && decide (s.txBitcnt.toNat = 8)) || decide (s.txState = .bufferLocked)

theorem txRemoves_eq (s : State) : txRemoves s = (s.txPhase && atCompaction s && !s.txf.lock) := rfl

/-- An acting tick of the transmitter writes `TXF` in the compaction attempt alone (R192 to R196). -/
theorem txAct_txf (hn : s.txBitcnt.toNat ≤ 8) :
    (txAct s).txf = if atCompaction s && !s.txf.lock then compactFront s.txf else s.txf := by
  cases hs : s.txState with
  | idle =>
    rw [txAct_idle hs]
    by_cases h : 1 ≤ s.txf.top.toNat
    · rw [txIdle_pending h]; simp [atCompaction, hs]
    · rw [txIdle_empty h]; simp [atCompaction, hs]
  | sentStartBit => rw [txAct_sentStartBit hs]; simp [txStartSent, atCompaction, hs]
  | sendingData =>
    rw [txAct_sendingData hs]
    by_cases h : s.txBitcnt.toNat < 8
    · rw [txSending_bit h]; simp [atCompaction, hs, h.ne]
    · have h8 : s.txBitcnt.toNat = 8 := by omega
      rw [txSending_stop h, txCompact_txf]
      cases hk : s.txf.lock <;> simp [atCompaction, hs, h8]
  | bufferLocked =>
    rw [txAct_bufferLocked hs, txCompact_txf]
    cases hk : s.txf.lock <;> simp [atCompaction, hs]

/-- A TICK of the transmitter removes the front of `TXF` where `txRemoves` says so, else it leaves `TXF` alone. -/
theorem txStep_txf (hn : s.txBitcnt.toNat ≤ 8) :
    (txStep s).txf = if txRemoves s then compactFront s.txf else s.txf := by
  rw [txRemoves_eq]
  cases hp : s.txPhase with
  | false => simp [txStep_gated hp]
  | true => rw [txStep_acting hp]; exact txAct_txf hn

/-- The receiver writes nothing of the transmitter's (R176). -/
theorem rxStep_keeps_tx (lvl : Bool) (hn : s.rxBitcnt.toNat ≤ 8) :
    (rxStep lvl s).txf = s.txf ∧ (rxStep lvl s).txBitcnt = s.txBitcnt ∧ txRemoves (rxStep lvl s) = txRemoves s := by
  obtain ⟨x, sh, n, p, cd, e, f, h⟩ := rxStep_writes lvl hn
  have hf : (rxStep lvl s).txf = s.txf := by rw [h]; split <;> rfl
  have hb : (rxStep lvl s).txBitcnt = s.txBitcnt := by rw [h]; split <;> rfl
  have hp : (rxStep lvl s).txPhase = s.txPhase := by rw [h]; split <;> rfl
  have hx : (rxStep lvl s).txState = s.txState := by rw [h]; split <;> simp [State.txState]
  exact ⟨hf, hb, by simp only [txRemoves, txAttempts, txActs, hf, hb, hp, hx]⟩

theorem serviceFifo_clean {f : Fifo} (h : f.dirty = false) : serviceFifo f = f := by
  simp [serviceFifo, h]

/-- A TICK services what the receiver leaves of `RXF` (R260). -/
theorem tickHandler_rxf (lvl : Bool) (s : State) : (tickHandler lvl s).rxf = serviceFifo (rxStep lvl s).rxf := by
  obtain ⟨x, p, d, sh, n, f, h⟩ := txStep_writes (rxStep lvl s)
  rw [tickHandler, h]
  rfl

/-- A TICK services what the transmitter leaves of `TXF` (R260). -/
theorem tickHandler_txf (lvl : Bool) (hrx : s.rxBitcnt.toNat ≤ 8) (htx : s.txBitcnt.toNat ≤ 8) :
    (tickHandler lvl s).txf = serviceFifo (if txRemoves s then compactFront s.txf else s.txf) := by
  obtain ⟨hf, hb, hr⟩ := rxStep_keeps_tx lvl hrx
  have h : (tickHandler lvl s).txf = serviceFifo (txStep (rxStep lvl s)).txf := rfl
  rw [h, txStep_txf (hb ▸ htx), hf, hr]

theorem txBitcnt_le_of_legal (h : s.legal = true) : s.txBitcnt.toNat ≤ 8 := by
  simp only [State.legal, Bool.and_eq_true, decide_eq_true_eq] at h
  tauto

/-- The edge handler writes neither FIFO (R163, R165). -/
theorem edgeHandler_fifos (c : BitVec 16) (s : State) :
    (edgeHandler c s).rxf = s.rxf ∧ (edgeHandler c s).txf = s.txf := by
  by_cases hx : s.rxState = .idle
  · rw [edgeHandler_idle c hx]; exact ⟨rfl, rfl⟩
  · rw [edgeHandler_busy c hx]; exact ⟨rfl, rfl⟩

/-! Slot 0. -/

/-- An append to a FIFO that holds a byte leaves slot 0 and `DIRTY` alone (R62, R135). -/
theorem fifoAppend_keeps_front {cap : Nat} {f g : Fifo} {b : Byte} (h : fifoAppend cap f b = some g)
    (hw : f.data.wf = true) (hp : 1 ≤ f.top.toNat) :
    g.data.read 0 = f.data.read 0 ∧ g.dirty = f.dirty := by
  obtain ⟨-, e⟩ | ⟨-, e⟩ := fifoAppend_cases cap f b <;> rw [e] at h <;> cases h
  exact ⟨read_write_other _ _ _ _ (by omega) hw, rfl⟩

/-- A TICK keeps slot 0 of an `RXF` that holds a byte, no pop outstanding. -/
theorem tickHandler_keeps_rx_front (lvl : Bool) (hw : s.rxf.data.wf = true) (hp : 1 ≤ s.rxf.top.toNat)
    (hd : s.rxf.dirty = false) : (tickHandler lvl s).rxf.data.read 0 = s.rxf.data.read 0 := by
  have h : (rxStep lvl s).rxf.data.read 0 = s.rxf.data.read 0 ∧ (rxStep lvl s).rxf.dirty = s.rxf.dirty := by
    obtain e | e := rxStep_rxf lvl s
    · simp [e]
    · exact fifoAppend_keeps_front e hw hp
  rw [tickHandler_rxf, serviceFifo_clean (h.2.trans hd), h.1]

/-- PC4 stores past slot 0 of a `TXF` that holds a byte: it finds the count at `FG_T` (R62, R225). -/
theorem storeByte_keeps_tx_front (h : Inv s) {b : Byte} (hl : RunsAt (.putChar b) .pc1 .pc4 s)
    (hp : 1 ≤ s.txf.top.toNat) : (fifoWrite s.txf s.fgT.toNat b).data.read 0 = s.txf.data.read 0 := by
  obtain ⟨ho, hstep⟩ := hl.inFlight (by decide)
  obtain hu | hr := h.phase
  · exact absurd hl (not_runsAt_of_unstarted hu rfl)
  · obtain ⟨ht, -⟩ := hr.putChar b ho (.inl hstep)
    exact read_write_other _ _ _ _ (by rw [ht]; omega) h.txMem

/-! The obligations. -/

/-- Settles O55: a TICK appends to `RXF`, PC4 stores to `TXF`, both past slot 0; a compaction needs a pop
outstanding, or is the transmitter's. -/
theorem frontByteStable : Obligations.FrontByteStable := by
  intro i s t hinv h
  have kept (hrx : t.rxf.data = s.rxf.data) (htx : t.txf.data = s.txf.data) :
      (1 ≤ s.rxf.top.toNat → s.rxf.dirty = false → t.rxf.data.read 0 = s.rxf.data.read 0) ∧
      (1 ≤ s.txf.top.toNat → s.txf.dirty = false → txRemoves s = false ∨ i.isCommand = true →
        t.txf.data.read 0 = s.txf.data.read 0) := by
    simp [hrx, htx]
  cases exec_effect h with
  | @tick lvl _ _ hl =>
    refine ⟨tickHandler_keeps_rx_front lvl hinv.rxMem, fun _ hd hr => ?_⟩
    have hr' : txRemoves s = false := hr.resolve_right (by simp [Instr.isCommand])
    rw [tickHandler_txf lvl (rxBitcnt_le_of_legal hl) (txBitcnt_le_of_legal hl), hr']
    simp [serviceFifo_clean hd]
  | pc4 hl => exact ⟨fun _ _ => rfl, fun hp _ _ => storeByte_keeps_tx_front hinv hl hp⟩
  | @edgeTaken c =>
    obtain ⟨hrx, htx⟩ := edgeHandler_fifos c s
    exact kept (by rw [hrx]) (by rw [htx])
  | @edgeFire c =>
    obtain ⟨hrx, htx⟩ := edgeHandler_fifos c { s with edgePend := false }
    exact kept (by rw [hrx]) (by rw [htx])
  | _ => exact kept (by simp [initialiseEffects]) (by simp [initialiseEffects, unlock])

/-- Settles O24: of PUT_CHAR's effects PC4's alone writes a byte, by one `FifoWrite`. -/
theorem putCharStoresOneSlot : Obligations.PutCharStoresOneSlot := by
  intro b s t hw h
  have kept (hn : ¬ (s.fgOp = some (.putChar b) ∧ s.fgStep = .pc4)) (hrx : t.rxf.data = s.rxf.data)
      (htx : t.txf.data = s.txf.data) :
      (s.fgOp = some (.putChar b) ∧ s.fgStep = .pc4 →
        t.txf.data.read s.fgT.toNat = b ∧
          ∀ a, a ≠ s.fgT.toNat → t.txf.data.read a = s.txf.data.read a) ∧
      (¬ (s.fgOp = some (.putChar b) ∧ s.fgStep = .pc4) →
        ∀ a, t.txf.data.read a = s.txf.data.read a) ∧
      ∀ a, t.rxf.data.read a = s.rxf.data.read a := by
    simp [hn, hrx, htx]
  have elsewhere {l : FgStep} (hl : RunsAt (.putChar b) .pc1 l s) (hne : l ≠ .pc4) :
      ¬ (s.fgOp = some (.putChar b) ∧ s.fgStep = .pc4) := by
    rintro ⟨ho, hstep⟩
    obtain ⟨ho', -⟩ | ⟨-, rfl⟩ := hl
    · simp [ho] at ho'
    · exact hne hstep
  cases exec_effect h with
  | pc4 hl =>
    exact ⟨fun _ => ⟨read_write_same _ _ _ hw, fun a ha => read_write_other _ _ _ _ ha hw⟩,
      fun hn => absurd (hl.inFlight (by decide)) hn, fun _ => rfl⟩
  | rejected c _ ho => exact kept (by simp [ho]) (by simp) (by simp)
  | pc1Held hl | pc1Free hl | pc2Held hl | pc2Taken hl | pc3Full hl | pc3Room hl | pc5 hl | pc6 hl =>
    exact kept (elsewhere hl (by decide)) rfl rfl

end Sys2Proof.Proofs
end

section
/-! PROOFS. What a turn runs: the word it takes, decoded (20_memory.md R65, 44_facade.md R220). -/

namespace Sys2Proof.Proofs

open Sys2Proof.Machine Sys2Proof.Safety Sys2Proof.Laws

/-! The encoding. -/

/-- The decoder reads the operand of an operation back from its opcode and operand bits (R81, R82). -/
theorem decodeOperand_opcode_operand (i : Instr) : decodeOperand i.opcode i.operand = .ok i := by
  cases i with
  | nop | dataPending | getChar | enableReceive | disableReceive | readStatus | clearOverflow => rfl
  | initialise idx => revert idx; decide
  | tick lvl => revert lvl; decide
  | putChar byte =>
    have hlow : (byte.zeroExtend 16).extractLsb' 0 8 = byte := 
      BitVec.eq_of_getLsbD_eq fun k hk => by simp [hk, show k < 16 by omega]
    have hhigh : (byte.zeroExtend 16).extractLsb' 8 8 = 0 := by ext k hk; simp
    simp [decodeOperand, Instr.opcode, Instr.operand, formatB, hlow, hhigh]
  | edge cnt | edgeFire cnt => rfl

/-- Every operation's word is laid out by R80. -/
theorem wordLayout (i : Instr) : WordLayout.Statement i :=
  WordLayout.of_opcode i (by cases i <;> simp [Instr.opcode, Instr.isCommand])

/-- The word of an operation decodes to it (R80 to R82). -/
theorem decodeWord_encode (i : Instr) : decodeWord (encode i) = .ok i := by
  obtain ⟨hrsv, hopc, hopnd, -⟩ := wordLayout i
  rw [decodeWord, if_pos hrsv, hopc, hopnd, decodeOperand_opcode_operand]

theorem decodeCommand_encode {i : Instr} (h : i.isCommand = true) : decodeCommand (encode i) = .ok i := by
  simp [decodeCommand, decodeWord_encode, h]

theorem decodeEvent_encode {i : Instr} (h : i.isCommand = false) : decodeEvent (encode i) = .ok i := by
  simp [decodeEvent, decodeWord_encode, h]

theorem onEventPort_encode (i : Instr) : onEventPort (encode i) = !i.isCommand := (wordLayout i).2.2.2

/-- Offering an event makes it the environment's next choice (R65). -/
theorem offerWord_event {i : Instr} (h : i.isCommand = false) (s : State) :
    offerWord (encode i) s = { s with script := .event (encode i) :: s.script } := by
  simp [offerWord, onEventPort_encode, h]

/-- Offering a command puts it at the head of the port, the foreground idle and next to move (R220). -/
theorem offerWord_command {i : Instr} (h : i.isCommand = true) (s : State) :
    offerWord (encode i) s = { s with
      fgOp := none, cmdPort := ⟨encode i, s.storageOk⟩ :: s.cmdPort, script := .foreground :: s.script } := by
  simp [offerWord, onEventPort_encode, h]

/-! The turn. -/

variable {s : State} {rest : List Turn} {i : Instr}

/-- The environment's event is run in the state without the choice. -/
theorem step_event (hf : s.fault = none) (hv : s.cfg.valid = true) {w : Word} (hs : s.script = .event w :: rest)
    (hd : decodeEvent w = .ok i) : step s = exec i { s with script := rest } := by
  simp [step, fetch, hf, hv, hs, fetchEvent, hd]

/-- The foreground's turn is fetched in the state without the choice. -/
theorem fetch_foregroundTurn (hf : s.fault = none) (hv : s.cfg.valid = true) (hs : foregroundTurn s rest) :
    fetch s = fetchForeground { s with script := rest } := by
  obtain ⟨hs, rfl⟩ | hs := hs
  · have hsame : { s with script := [] } = s := by rw [← hs]
    rw [hsame]; simp [fetch, hf, hv, hs]
  · simp [fetch, hf, hv, hs]

/-- A command in flight is gone on with. -/
theorem step_inFlight (hf : s.fault = none) (hv : s.cfg.valid = true) (hs : foregroundTurn s rest)
    (ho : s.fgOp = some i) : step s = exec i { s with script := rest } := by
  simp [step, fetch_foregroundTurn hf hv hs, fetchForeground, ho]

/-- With none in flight the next command word is taken, with its draw, and run. -/
theorem step_takes (hf : s.fault = none) (hv : s.cfg.valid = true) (hs : foregroundTurn s rest)
    (ho : s.fgOp = none) {c : HostCommand} {port : List HostCommand} (hc : s.cmdPort = c :: port)
    (hd : decodeCommand c.word = .ok i) :
    step s = exec i { s with script := rest, cmdPort := port, storageOk := c.storageOk } := by
  simp [step, fetch_foregroundTurn hf hv hs, fetchForeground, ho, hc, hd]

/-- The 32 bits offered are the word. -/
theorem withFetchWord_toNat (s : State) (w : Word) : s.withFetchWord 32 w.toNat = offerWord w s := by
  rw [State.withFetchWord, Nat.mod_eq_of_lt w.isLt, BitVec.ofNat_toNat, BitVec.setWidth_eq]

/-! The obligations. -/

/-- Settles O5: one clause for each kind of turn. -/
theorem stepRunsDecodedOperation : Obligations.StepRunsDecodedOperation := by
  intro s hf hv
  exact ⟨fun _ _ _ => step_event hf hv, fun _ _ => step_inFlight hf hv, 
    fun _ _ _ _ hs ho => step_takes hf hv hs ho⟩

/-- Settles O6: the word offered stands at the head of its port, its turn is next, and it decodes to the operation. -/
theorem offeredWordRunsNext : Obligations.OfferedWordRunsNext := by
  intro s i hf hv
  rw [withFetchWord_toNat]
  cases hc : i.isCommand with
  | false =>
    rw [offerWord_event hc]
    exact step_event (s := { s with script := .event (encode i) :: s.script }) hf hv rfl (decodeEvent_encode hc)
  | true =>
    rw [offerWord_command hc]
    exact step_takes (s := { s with
      fgOp := none, cmdPort := ⟨encode i, s.storageOk⟩ :: s.cmdPort, script := .foreground :: s.script })
      hf hv (.inr rfl) rfl rfl (decodeCommand_encode hc)

end Sys2Proof.Proofs
end

section
/-! PROOFS. The decoder against the encoder and against the opcode table (30_encoding.md R80 to R84, R95). -/

namespace Sys2Proof.Proofs

open Sys2Proof.Machine Sys2Proof.Safety Sys2Proof.Laws

/-! The fields of a word. -/

/-- A word is its three fields (R80). -/
theorem append_fields (w : Word) : opcOf w ++ rsvOf w ++ opndOf w = w := by
  simp only [opcOf, rsvOf, opndOf]
  iterate 2 rw [BitVec.extractLsb'_append_extractLsb'_eq_extractLsb' (by rfl)]
  exact BitVec.extractLsb'_eq_self

/-- The four bytes of a word, first byte least significant, carry the word (R95). -/
theorem wordOfBytes_bytesOfWord (w : Word) :
    wordOfBytes (w.extractLsb' 0 8) (w.extractLsb' 8 8) (w.extractLsb' 16 8) (w.extractLsb' 24 8) = w := by
  rw [wordOfBytes]
  iterate 3 rw [BitVec.extractLsb'_append_extractLsb'_eq_extractLsb' (by rfl)]
  exact BitVec.extractLsb'_eq_self

/-- A decodable word carried as bytes is decoded, and the bytes after it are left (R95). -/
theorem decodeBytes_bytesOfWord {w : Word} {i : Instr} (h : decodeWord w = .ok i) (rest : List Byte) :
    decodeBytes (bytesOfWord w ++ rest) = .ok (i, rest) := by
  simp only [bytesOfWord, List.cons_append, List.nil_append, decodeBytes, wordOfBytes_bytesOfWord, h]

/-! The operand formats: the bits R81 requires to be 0 are those from the operand's width on. -/

/-- The bits from `k` on are 0 exactly below `2 ^ k`. -/
theorem extractLsb'_eq_zero_iff {k : Nat} (hk : k ≤ 16) (x : BitVec 16) :
    x.extractLsb' k (16 - k) = 0 ↔ x.toNat < 2 ^ k := by
  have hlt : x.toNat / 2 ^ k < 2 ^ (16 - k) := by
    rw [Nat.div_lt_iff_lt_mul (by positivity), ← Nat.pow_add, Nat.sub_add_cancel hk]
    exact x.isLt
  rw [← BitVec.toNat_inj, BitVec.extractLsb'_toNat, Nat.shiftRight_eq_div_pow, Nat.mod_eq_of_lt hlt]
  simp [Nat.div_eq_zero_iff]

/-- The mask of the bits from `k` on gives 0 exactly below `2 ^ k`. -/
theorem and_mask_eq_zero_iff (k : Nat) (x : BitVec 16) :
    x &&& BitVec.allOnes 16 <<< k = 0 ↔ x.toNat < 2 ^ k := by
  have hle : x.toNat / 2 ^ k * 2 ^ k < 2 ^ 16 := (Nat.div_mul_le_self _ _).trans_lt x.isLt
  rw [← BitVec.shiftLeft_ushiftRight, ← BitVec.toNat_inj, BitVec.toNat_shiftLeft, BitVec.toNat_ushiftRight,
    Nat.shiftRight_eq_div_pow, Nat.shiftLeft_eq, Nat.mod_eq_of_lt hle]
  simp [Nat.div_eq_zero_iff]

theorem formatN_eq (opnd : BitVec 16) (i : Instr) :
    formatN opnd i = if opnd.toNat < 2 ^ 0 then .ok i else .error .operandBits := by
  simp only [formatN, ← extractLsb'_eq_zero_iff (Nat.zero_le 16), Nat.sub_zero, BitVec.extractLsb'_eq_self]

theorem formatB_eq (opnd : BitVec 16) (f : Byte → Instr) : formatB opnd f =
    if opnd.toNat < 2 ^ 8 then .ok (f (opnd.extractLsb' 0 8)) else .error .operandBits := by
  simp only [formatB, ← extractLsb'_eq_zero_iff (show 8 ≤ 16 by decide)]

theorem formatI_eq (opnd : BitVec 16) (f : BitVec 3 → Instr) : formatI opnd f =
    if opnd.toNat < 2 ^ 3 then .ok (f (opnd.extractLsb' 0 3)) else .error .operandBits := by
  simp only [formatI, ← extractLsb'_eq_zero_iff (show 3 ≤ 16 by decide)]

theorem formatL_eq (opnd : BitVec 16) (f : Bool → Instr) : formatL opnd f =
    if opnd.toNat < 2 ^ 1 then .ok (f (opnd.getLsbD 0)) else .error .operandBits := by
  simp only [formatL, ← extractLsb'_eq_zero_iff (show 1 ≤ 16 by decide)]

/-! A decoded operand is the operand of the operation. -/

variable {opnd : BitVec 16} {i : Instr}

theorem formatN_ok {j : Instr} (h : formatN opnd j = .ok i) : i = j ∧ opnd = 0 := by
  unfold formatN at h
  split at h <;> cases h
  exact ⟨rfl, by assumption⟩

theorem zeroExtend_extractLsb' {k : Nat} (h : opnd.toNat < 2 ^ k) :
    (opnd.extractLsb' 0 k).zeroExtend 16 = opnd := by
  apply BitVec.eq_of_toNat_eq
  simp [Nat.mod_eq_of_lt h, Nat.mod_eq_of_lt opnd.isLt]

theorem formatB_ok {f : Byte → Instr} (h : formatB opnd f = .ok i) :
    ∃ byte : Byte, i = f byte ∧ opnd = byte.zeroExtend 16 := by
  rw [formatB_eq] at h
  split at h <;> cases h
  exact ⟨_, rfl, (zeroExtend_extractLsb' (by assumption)).symm⟩

theorem formatI_ok {f : BitVec 3 → Instr} (h : formatI opnd f = .ok i) :
    ∃ idx : BitVec 3, i = f idx ∧ opnd = idx.zeroExtend 16 := by
  rw [formatI_eq] at h
  split at h <;> cases h
  exact ⟨_, rfl, (zeroExtend_extractLsb' (by assumption)).symm⟩

theorem formatL_ok {f : Bool → Instr} (h : formatL opnd f = .ok i) :
    ∃ lvl : Bool, i = f lvl ∧ opnd = if lvl then 1 else 0 := by
  rw [formatL_eq] at h
  split at h <;> cases h
  rename_i hlt
  refine ⟨_, rfl, ?_⟩
  obtain rfl | rfl : opnd = 0 ∨ opnd = 1 := by bv_omega
  · rfl
  · rfl

theorem formatC_ok {f : BitVec 16 → Instr} (h : formatC opnd f = .ok i) : i = f opnd := (Except.ok.inj h).symm

/-! The opcodes, each with its format (R82). -/

/-- The operations of format N. -/
def noOperand : List Instr :=
  [.nop, .dataPending, .getChar, .enableReceive, .disableReceive, .readStatus, .clearOverflow]

/-- Their opcodes decode by format N, and their operand is 0. -/
theorem decodeOperand_noOperand {j : Instr} (hj : j ∈ noOperand) (opnd : BitVec 16) :
    decodeOperand j.opcode opnd = formatN opnd j ∧ j.operand = 0 := by
  simp only [noOperand, List.mem_cons, List.not_mem_nil, or_false] at hj
  obtain rfl | rfl | rfl | rfl | rfl | rfl | rfl := hj <;> exact ⟨rfl, rfl⟩

/-- An opcode is one of format N, one of the five others, or reserved. -/
theorem opcode_cases (opc : BitVec 8) :
    (∃ j ∈ noOperand, opc = j.opcode) ∨ opc = 0x01 ∨ opc = 0x02 ∨ opc = 0x80 ∨ opc = 0x81 ∨ opc = 0x82 ∨
      ∀ opnd, decodeOperand opc opnd = .error .reservedOpcode := by
  by_cases h : opc ∈ [0x00, 0x01, 0x02, 0x03, 0x04, 0x05, 0x06, 0x07, 0x08, 0x80, 0x81, 0x82]
  · revert opc; decide
  · simp only [List.mem_cons, List.not_mem_nil, or_false, not_or] at h
    simp only [decodeOperand, h, if_false, implies_true, or_true]

/-- The decoder reads an operation only from its own opcode and operand (R81, R82, R84). -/
theorem opcode_operand_of_decodeOperand {opc : BitVec 8} (h : decodeOperand opc opnd = .ok i) :
    i.opcode = opc ∧ i.operand = opnd := by
  obtain ⟨j, hj, rfl⟩ | rfl | rfl | rfl | rfl | rfl | hreserved := opcode_cases opc
  · obtain ⟨hdec, hz⟩ := decodeOperand_noOperand hj opnd
    obtain ⟨rfl, rfl⟩ := formatN_ok (hdec.symm.trans h)
    exact ⟨rfl, hz⟩
  · obtain ⟨idx, rfl, rfl⟩ := formatI_ok (f := .initialise) h; exact ⟨rfl, rfl⟩
  · obtain ⟨byte, rfl, rfl⟩ := formatB_ok (f := .putChar) h; exact ⟨rfl, rfl⟩
  · obtain ⟨lvl, rfl, rfl⟩ := formatL_ok (f := .tick) h; exact ⟨rfl, rfl⟩
  · obtain rfl := formatC_ok (f := .edge) h; exact ⟨rfl, rfl⟩
  · obtain rfl := formatC_ok (f := .edgeFire) h; exact ⟨rfl, rfl⟩
  · cases (hreserved opnd).symm.trans h

/-- The word of a decoded operation has its fields (R80 to R84). -/
theorem fields_of_decodeWord {w : Word} (h : decodeWord w = .ok i) :
    rsvOf w = 0 ∧ i.opcode = opcOf w ∧ i.operand = opndOf w := by
  unfold decodeWord at h
  split at h
  · rename_i hrsv; exact ⟨hrsv, opcode_operand_of_decodeOperand h⟩
  · cases h

/-! The opcode table (R82): every row is the row of an operation, whatever the operand. -/

/-- The width of the operand, from the table's mask. -/
def operandBits (width : TimerWidth) : Instr → Nat
  | .initialise _ => 3
  | .putChar _ => 8
  | .tick _ => 1
  | .edge _ => width.bits
  | .edgeFire _ => width.bits
  | _ => 0

/-- The row of an operation: the mask leaves the operand's bits free. -/
def rowOf (width : TimerWidth) (i : Instr) : OpcodeRow where
  mnemonic := i.mnemonic
  pattern := packWord i.opcode 0
  mask := BitVec.allOnes 8 ++ BitVec.allOnes 8 ++ BitVec.allOnes 16 <<< operandBits width i

/-- An operation for each row of the table. -/
def rowInstrs : List Instr :=
  [.nop, .initialise 0, .putChar 0, .dataPending, .getChar, .enableReceive, .disableReceive, .readStatus,
    .clearOverflow, .tick false, .edge 0, .edgeFire 0]

theorem opcodeTable_eq (width : TimerWidth) : opcodeTable width = rowInstrs.map (rowOf width) := by
  cases width <;> rfl

theorem append_inj_iff {m n : Nat} {a b : BitVec m} {c d : BitVec n} : a ++ c = b ++ d ↔ a = b ∧ c = d := by
  refine ⟨fun h => ⟨?_, ?_⟩, fun ⟨ha, hc⟩ => by rw [ha, hc]⟩
  · simpa only [BitVec.extractLsb'_append_eq_left] using congrArg (BitVec.extractLsb' n m) h
  · simpa only [BitVec.extractLsb'_append_eq_right] using congrArg (BitVec.extractLsb' 0 n) h

/-- A mask that frees low operand bits alone compares field by field. -/
theorem and_mask_eq_fields (a b p : BitVec 8) (c m : BitVec 16) :
    (a ++ b ++ c) &&& (BitVec.allOnes 8 ++ BitVec.allOnes 8 ++ m) = p ++ (0 : BitVec 8) ++ (0 : BitVec 16) ↔
      b = 0 ∧ p = a ∧ c &&& m = 0 := by
  rw [BitVec.and_append, BitVec.and_append, append_inj_iff, append_inj_iff, BitVec.and_allOnes, BitVec.and_allOnes,
    and_comm (a := a = p), and_assoc, eq_comm (a := a)]

/-- A word fits the row of an operation by its fields. -/
theorem rowOf_fits (width : TimerWidth) (j : Instr) (w : Word) : (rowOf width j).fits w = true ↔
    rsvOf w = 0 ∧ j.opcode = opcOf w ∧ (opndOf w).toNat < 2 ^ operandBits width j := by
  calc (rowOf width j).fits w = true
      ↔ (opcOf w ++ rsvOf w ++ opndOf w) &&& (rowOf width j).mask = packWord j.opcode 0 := by
        rw [append_fields]; exact beq_iff_eq
    _ ↔ rsvOf w = 0 ∧ j.opcode = opcOf w ∧ opndOf w &&& BitVec.allOnes 16 <<< operandBits width j = 0 := by
        exact and_mask_eq_fields _ _ _ _ _
    _ ↔ _ := by rw [and_mask_eq_zero_iff]

/-- The rows of one opcode are one. -/
theorem rowInstrs_filter_opcode (i : Instr) :
    ∃ j, rowInstrs.filter (·.opcode = i.opcode) = [j] ∧ ∀ width, rowOf width j = rowOf width i := by
  cases i <;> exact ⟨_, rfl, fun _ => rfl⟩

/-- A word with the opcode of an operation and an operand of its width decodes (R81). -/
theorem decodes_of_operandBits {width : TimerWidth} (j : Instr) (h : opnd.toNat < 2 ^ operandBits width j) :
    ∃ i, decodeOperand j.opcode opnd = .ok i := by
  cases j with
  | initialise idx => exact ⟨_, (formatI_eq opnd .initialise).trans (if_pos h)⟩
  | putChar byte => exact ⟨_, (formatB_eq opnd .putChar).trans (if_pos h)⟩
  | tick lvl => exact ⟨_, (formatL_eq opnd .tick).trans (if_pos h)⟩
  | edge cnt | edgeFire cnt => exact ⟨_, rfl⟩
  | _ => exact ⟨_, (decodeOperand_noOperand (by decide) opnd).1.trans ((formatN_eq opnd _).trans (if_pos h))⟩

/-- The build whose operand checks the table's masks have: every rate enabled, edges latched. -/
def tableConfig (width : TimerWidth) : Config :=
  { Config.tc with width, edgeLatch := .latched, ratesEnabled := List.range 8 }

/-- For that build an operation is well formed where its operand has the width of its row (R81, R83). -/
theorem wellFormed_tableConfig (width : TimerWidth) (i : Instr) :
    i.wellFormed (tableConfig width) = decide (i.operand.toNat < 2 ^ operandBits width i) := by
  cases i with
  | initialise idx => revert idx; cases width <;> decide
  | tick lvl => cases lvl <;> rfl
  | putChar byte =>
    have hlt : (byte.zeroExtend 16).toNat < 2 ^ 8 := by
      rw [BitVec.toNat_setWidth]
      exact (Nat.mod_le _ _).trans_lt byte.isLt
    exact (decide_eq_true hlt).symm
  | edge cnt | edgeFire cnt => rfl
  | _ => rfl

/-- The rows a word fits. -/
def rowsOf (width : TimerWidth) (w : Word) : List String := ((opcodeTable width).filter (·.fits w)).map (·.mnemonic)

/-- A word fits no row but the one of its opcode. -/
theorem rowsOf_of_opcode {w : Word} (width : TimerWidth) (h : i.opcode = opcOf w) :
    rowsOf width w = if (rowOf width i).fits w then [i.mnemonic] else [] := by
  obtain ⟨j, hj, hrow⟩ := rowInstrs_filter_opcode i
  have hfits (k : Instr) : (rowOf width k).fits w = ((rowOf width k).fits w && decide (k.opcode = i.opcode)) := by
    rw [Bool.eq_self_and, decide_eq_true_eq, h]
    exact fun hk => ((rowOf_fits width k w).mp hk).2.1
  calc rowsOf width w
      = ((rowInstrs.filter fun k => (rowOf width k).fits w).map (rowOf width)).map (·.mnemonic) := by
        rw [rowsOf, opcodeTable_eq, List.filter_map]; rfl
    _ = (([j].filter fun k => (rowOf width k).fits w).map (rowOf width)).map (·.mnemonic) := by
        rw [List.filter_congr fun k _ => hfits k, ← List.filter_filter, hj]
    _ = if (rowOf width i).fits w then [i.mnemonic] else [] := by
        have hm : j.mnemonic = i.mnemonic := congrArg OpcodeRow.mnemonic (hrow width)
        rw [List.filter_singleton, hrow]
        cases (rowOf width i).fits w <;> simp [rowOf, hm]

/-- A word that decodes fits the row of its operation, where that is well formed, and no other. -/
theorem rowsOf_of_decodes {w : Word} (width : TimerWidth) (h : decodeWord w = .ok i) :
    rowsOf width w = if i.wellFormed (tableConfig width) then [i.mnemonic] else [] := by
  obtain ⟨hrsv, hopc, hopnd⟩ := fields_of_decodeWord h
  have hi : (rowOf width i).fits w = i.wellFormed (tableConfig width) := by
    rw [Bool.eq_iff_iff, rowOf_fits, wellFormed_tableConfig, decide_eq_true_eq, hopnd]
    simp [hrsv, hopc]
  rw [rowsOf_of_opcode width hopc, hi]

/-- A word that fits a row decodes. -/
theorem decodes_of_fits {w : Word} {width : TimerWidth} {j : Instr} (h : (rowOf width j).fits w = true) :
    ∃ i, decodeWord w = .ok i := by
  obtain ⟨hrsv, hopc, hopnd⟩ := (rowOf_fits width j w).mp h
  rw [decodeWord, if_pos hrsv, ← hopc]
  exact decodes_of_operandBits j hopnd

/-- A word that does not decode fits no row. -/
theorem rowsOf_of_error {w : Word} {e : DecodeError} (width : TimerWidth) (h : decodeWord w = .error e) :
    rowsOf width w = [] := by
  rw [rowsOf, List.map_eq_nil_iff, List.filter_eq_nil_iff, opcodeTable_eq, List.forall_mem_map]
  intro j _ hfits
  obtain ⟨i, hi⟩ := decodes_of_fits hfits
  cases h.symm.trans hi

/-! The obligations. -/

/-- Settles O1: each word is evaluated. -/
theorem decodeWordsWrittenOut : Obligations.DecodeWordsWrittenOut := by
  unfold Obligations.DecodeWordsWrittenOut
  decide

/-- Settles O2: the fields of the word give the operation back, and its four bytes give the word. -/
theorem decodeAfterEncode : Obligations.DecodeAfterEncode := by
  intro i
  obtain ⟨-, hopc, -⟩ := wordLayout i
  exact ⟨decodeWord_encode i, congrArg some hopc, decodeBytes_bytesOfWord (decodeWord_encode i)⟩

/-- Settles O3: what decodes has the opcode, the operand and the zero `RSV` of its operation, which are the word. -/
theorem encodeAfterDecode : Obligations.EncodeAfterDecode := by
  intro w i h
  obtain ⟨hrsv, hopc, hopnd⟩ := fields_of_decodeWord h
  calc encode i = opcOf w ++ rsvOf w ++ opndOf w := by rw [encode, packWord, hopc, hopnd, hrsv]
    _ = w := append_fields w

/-- Settles O4: a word that decodes fits at most its operation's row, and a word that fits a row decodes. -/
theorem decoderMatchesOpcodeTable : Obligations.DecoderMatchesOpcodeTable := by
  intro width w
  change rowsOf width w = _
  cases hd : decodeWord w with
  | ok i => exact rowsOf_of_decodes width hd
  | error e => exact rowsOf_of_error width hd

end Sys2Proof.Proofs
end

section
/-! PROOFS. When an event or a command has a step, and when it has none (30_encoding.md R84; 45_events.md R261 to
R266). -/

namespace Sys2Proof.Proofs

open Sys2Proof.Machine Sys2Proof.Safety Sys2Proof.Laws

variable {s : State} {i : Instr}

/-! Refusals. -/

/-- An event that is none of the build is refused (R84). -/
theorem eventStep_illFormed {body : State → Host.Outcome State Fault Refusal} (hf : s.fault = none)
    (hw : i.wellFormed s.cfg = false) : eventStep i body s = .refused .notAnEvent := by
  simp [eventStep, hf, hw]

/-- Every event's meaning is its body under the checks of an event. -/
theorem exec_event_eq (hi : i.isCommand = false) : ∃ body, ∀ s, exec i s = eventStep i body s := by
  cases i with
  | tick | edge | edgeFire => simp only [exec]; exact ⟨_, fun _ => rfl⟩
  | _ => cases hi

theorem exec_event_illFormed (hf : s.fault = none) (hi : i.isCommand = false) (hw : i.wellFormed s.cfg = false) :
    exec i s = .refused .notAnEvent := by
  obtain ⟨body, h⟩ := exec_event_eq hi
  rw [h, eventStep_illFormed hf hw]

/-- Every command's meaning is its micro-steps in the course of a foreground command. -/
theorem exec_command_eq (hi : i.isCommand = true) :
    ∃ first body, ∀ s, exec i s = foregroundStep i first body s := by
  cases i with
  | tick | edge | edgeFire => cases hi
  | _ => simp only [exec]; exact ⟨_, _, fun _ => rfl⟩

/-- A foreground turn before a due EDGE_FIRE is refused (R263). -/
theorem foregroundStep_edgeFireReady {first : FgStep} {body : FgStep → State → Host.Outcome State Fault Refusal}
    (hf : s.fault = none) (he : s.edgeFireReady = true) : foregroundStep i first body s = .refused .edgeFireFirst := by
  simp [foregroundStep, hf, he]

theorem exec_command_edgeFireReady (hf : s.fault = none) (he : s.edgeFireReady = true) (hi : i.isCommand = true) :
    exec i s = .refused .edgeFireFirst := by
  obtain ⟨first, body, h⟩ := exec_command_eq hi
  rw [h, foregroundStep_edgeFireReady hf he]

theorem isCommand_of_decodeEvent {w : Word} (h : decodeEvent w = .ok i) : i.isCommand = false := by
  unfold decodeEvent at h
  split at h
  · split at h <;> cases h
    rename_i hc
    exact Bool.eq_false_iff.mpr hc
  · cases h

/-- A word that is no event has no step (R84). -/
theorem step_event_error (hf : s.fault = none) (hv : s.cfg.valid = true) {w : Word} {rest : List Turn}
    (hs : s.script = .event w :: rest) {e : DecodeError} (hd : decodeEvent w = .error e) :
    step s = .refused .notAnEvent := by
  simp [step, fetch, hf, hv, hs, fetchEvent, hd]

/-! The events of a build, admitted or not. -/

/-- A TICK cannot occur while the timer is stopped or masked (R261). -/
theorem exec_tick_stopped (hf : s.fault = none) (hr : s.tickReady = false) (lvl : Bool) :
    exec (.tick lvl) s = .refused .tickCannotOccur := by
  simp [exec, execTick, eventStep_run (i := .tick lvl) hf rfl, hr]

variable {c : BitVec 16}

theorem exec_edgeFire_notReady (hf : s.fault = none) (hw : (Instr.edgeFire c).wellFormed s.cfg = true)
    (hr : s.edgeFireReady = false) : exec (.edgeFire c) s = .refused .edgeFireCannotOccur := by
  simp [exec, execEdgeFire, eventStep_run hf hw, hr]

theorem exec_edgeFire_countAbove (hf : s.fault = none) (hw : (Instr.edgeFire c).wellFormed s.cfg = true)
    (hr : s.edgeFireReady = true) (hc : s.tmrTop.toNat < c.toNat) :
    exec (.edgeFire c) s = .refused .countAboveTop := by
  simp [exec, execEdgeFire, eventStep_run hf hw, hr, countAdmitted, hc]

theorem exec_edge_countAbove (hf : s.fault = none) (hw : (Instr.edge c).wellFormed s.cfg = true)
    (hr : s.edgeReady = true) (hc : s.tmrTop.toNat < c.toNat) :
    exec (.edge c) s = .refused .countAboveTop := by
  simp [exec, execEdge, eventStep_run hf hw, hr, countAdmitted, hc]

/-- A TICK that can occur runs its handler (R260). -/
theorem exec_tick (h : canTick s) (lvl : Bool) : exec (.tick lvl) s = .next (tickHandler lvl s) := by
  obtain ⟨hf, hr, hl⟩ := h
  simp [exec, execTick, eventStep_run (i := .tick lvl) hf rfl, hr, hl, (ignoresGie_tickHandler lvl).takeInterrupt_eq]

/-- A running link takes every TICK (R261). -/
theorem Running.canTick (h : Running s) (hf : s.fault = none) : canTick s :=
  ⟨hf, by simp [State.tickReady, h.tmrRun, h.tickIe, h.gie], h.legal⟩

/-- An EDGE delivered at an admitted count runs its handler (R262, R264). -/
theorem exec_edge_delivered (hf : s.fault = none) (hw : (Instr.edge c).wellFormed s.cfg = true)
    (hr : s.edgeReady = true) (hc : c.toNat ≤ s.tmrTop.toNat) : exec (.edge c) s = .next (edgeHandler c s) := by
  simp [exec, execEdge, eventStep_run hf hw, hr, countAdmitted, hc, (ignoresGie_edgeHandler c).takeInterrupt_eq]

/-! The obligations. -/

/-- Settles O38: each stop is the first test its meaning fails. -/
theorem impossibleEventsHaveNoStep : Obligations.ImpossibleEventsHaveNoStep := by
  intro s hf
  refine ⟨?_, ?_, ?_, ?_, ?_, ?_, ?_⟩
  · intro w rest hv hs hw
    obtain ⟨e, hd⟩ | ⟨i, hd, hill⟩ := hw
    · exact step_event_error hf hv hs hd
    · rw [step_event hf hv hs hd]
      exact exec_event_illFormed (s := { s with script := rest }) hf (isCommand_of_decodeEvent hd) hill
  · intro lvl hoff
    exact exec_tick_stopped hf (by obtain h | h | h := hoff <;> simp [State.tickReady, h]) lvl
  · intro c hlatch
    exact exec_event_illFormed hf rfl (by simp [Instr.wellFormed, hlatch])
  · intro c hw hoff
    exact exec_edgeFire_notReady hf hw (by
      obtain h | h | h := hoff <;> simp [State.edgeFireReady, State.edgePendRead, h])
  · exact fun c hw hr hc => exec_edgeFire_countAbove hf hw hr hc
  · exact fun c hw he hg hc => exec_edge_countAbove hf hw (by simp [State.edgeReady, he, hg]) hc
  · exact fun i he hi => exec_command_edgeFireReady hf he hi

end Sys2Proof.Proofs
end

section
/-! PROOFS. A whole received frame, TICK by TICK (30_encoding.md R92; 42_rx_engine.md R163 to R177). -/

namespace Sys2Proof.Proofs

open Sys2Proof.Machine Sys2Proof.Safety Sys2Proof.Laws

/-! What the tick after the RX step leaves of the receiver's fields (R201, R260). -/

section
variable (lvl : Bool) (s : State)

/-- After the RX step a TICK writes the transmitter's fields and services `RXF` (R260). -/
theorem tickHandler_writes : ∃ x p d sh n f, tickHandler lvl s =
    { rxStep lvl s with
      rxf := serviceFifo (rxStep lvl s).rxf, txPhase := p, txd := d, txShift := sh, txBitcnt := n, txf := f
      }.setTxState x := by
  obtain ⟨x, p, d, sh, n, f, h⟩ := txStep_writes (rxStep lvl s)
  exact ⟨x, p, d, sh, n, serviceFifo f, by rw [tickHandler, h]; rfl⟩

@[simp] theorem tickHandler_cfg : (tickHandler lvl s).cfg = (rxStep lvl s).cfg := by
  obtain ⟨_, _, _, _, _, _, h⟩ := tickHandler_writes lvl s; rw [h]; rfl

@[simp] theorem tickHandler_fault : (tickHandler lvl s).fault = (rxStep lvl s).fault := by
  obtain ⟨_, _, _, _, _, _, h⟩ := tickHandler_writes lvl s; rw [h]; rfl

@[simp] theorem tickHandler_rxShift : (tickHandler lvl s).rxShift = (rxStep lvl s).rxShift := by
  obtain ⟨_, _, _, _, _, _, h⟩ := tickHandler_writes lvl s; rw [h]; rfl

@[simp] theorem tickHandler_rxBitcnt : (tickHandler lvl s).rxBitcnt = (rxStep lvl s).rxBitcnt := by
  obtain ⟨_, _, _, _, _, _, h⟩ := tickHandler_writes lvl s; rw [h]; rfl

@[simp] theorem tickHandler_rxPhase : (tickHandler lvl s).rxPhase = (rxStep lvl s).rxPhase := by
  obtain ⟨_, _, _, _, _, _, h⟩ := tickHandler_writes lvl s; rw [h]; rfl

@[simp] theorem tickHandler_rxCd : (tickHandler lvl s).rxCd = (rxStep lvl s).rxCd := by
  obtain ⟨_, _, _, _, _, _, h⟩ := tickHandler_writes lvl s; rw [h]; rfl

@[simp] theorem tickHandler_edgeIe : (tickHandler lvl s).edgeIe = (rxStep lvl s).edgeIe := by
  obtain ⟨_, _, _, _, _, _, h⟩ := tickHandler_writes lvl s; rw [h]; rfl

@[simp] theorem tickHandler_rxovf : (tickHandler lvl s).rxovf = (rxStep lvl s).rxovf := by
  obtain ⟨x, _, _, _, _, _, h⟩ := tickHandler_writes lvl s
  rw [h, rxovf_setTxState]; rfl

end

/-! The countdown, in either order (R170). -/

/-- The TICKs from a countdown to the first sample, that one counted (R92, R177). -/
def ticksToSample (mode : RxCdMode) (cd : BitVec 2) : Nat :=
  cd.toNat +
    match mode with
    | .testThenDecrement => 1
    | .decrementThenTest => 0

theorem frameCountdown_eq (mode : RxCdMode) (c thresh : BitVec 16) :
    frameCountdown mode c thresh = ticksToSample mode (countdownFor c thresh) := by
  cases mode <;> rfl

theorem one_le_frameCountdown (mode : RxCdMode) (c thresh : BitVec 16) : 1 ≤ frameCountdown mode c thresh := by
  have : 1 ≤ (countdownFor c thresh).toNat := by unfold countdownFor; split <;> decide
  unfold frameCountdown
  omega

/-- More than one TICK before the sample: the TICK counts down. -/
theorem rxArmed_counts {s : State} {m : Nat} (h : ticksToSample s.cfg.rxCdMode s.rxCd = m + 2) (lvl : Bool) :
    rxArmed lvl s = { s with rxCd := s.rxCd - 1 } ∧ ticksToSample s.cfg.rxCdMode (s.rxCd - 1) = m + 1 := by
  cases hm : s.cfg.rxCdMode with
  | testThenDecrement =>
    simp only [hm, ticksToSample] at h ⊢
    have h0 : s.rxCd ≠ 0#2 := by bv_omega
    exact ⟨by simp [rxArmed, hm, h0], by bv_omega⟩
  | decrementThenTest =>
    simp only [hm, ticksToSample] at h ⊢
    have h0 : s.rxCd - 1#2 ≠ 0#2 := by bv_omega
    exact ⟨by simp [rxArmed, hm, h0], by bv_omega⟩

/-- One TICK before the sample: the TICK takes it. -/
theorem rxArmed_samples {s : State} (h : ticksToSample s.cfg.rxCdMode s.rxCd = 1) (lvl : Bool) :
    rxArmed lvl s = rxFirstSample lvl { s with rxCd := 0 } := by
  cases hm : s.cfg.rxCdMode with
  | testThenDecrement =>
    simp only [hm, ticksToSample] at h
    have h0 : s.rxCd = 0#2 := by bv_omega
    have hs : { s with rxCd := 0#2 } = s := by rw [← h0]
    simp [rxArmed, hm, h0, hs]
  | decrementThenTest =>
    simp only [hm, ticksToSample] at h
    have h0 : s.rxCd - 1#2 = 0#2 := by bv_omega
    simp [rxArmed, hm, h0]

/-! The run. -/

/-- The state after TICKs at the levels listed. -/
def afterTicks (levels : List Bool) (s : State) : State := levels.foldl (fun t lvl => tickHandler lvl t) s

theorem afterTicks_append (l l' : List Bool) (s : State) :
    afterTicks (l ++ l') s = afterTicks l' (afterTicks l s) := List.foldl_append

theorem afterTicks_cons (lvl : Bool) (l : List Bool) (s : State) :
    afterTicks (lvl :: l) s = afterTicks l (tickHandler lvl s) := rfl

/-- A running link takes any TICKs, each running its handler. -/
theorem runEvents_ticks (levels : List Bool) {s : State} (h : Running s) (hf : s.fault = none) :
    runEvents (levels.map .tick) s = .next (afterTicks levels s) := by
  induction levels generalizing s with
  | nil => rfl
  | cons lvl rest ih =>
    have hl := rxBitcnt_le_of_legal h.legal
    have hf' : (tickHandler lvl s).fault = none := by
      obtain ⟨x, sh, n, p, cd, e, f, hr⟩ := rxStep_writes lvl hl
      rw [tickHandler_fault, hr]
      split <;> exact hf
    rw [List.map_cons, runEvents, exec_tick (h.canTick hf)]
    exact ih (h.tickHandler lvl) hf'

/-! The course of a frame. -/

/-- In the course of a frame begun in `o` the link runs, and `RXF` and `RXOVF` are as in `o`. -/
structure MidFrame (o s : State) : Prop where
  running : Running s
  fault : s.fault = none
  cfg : s.cfg = o.cfg
  clean : s.rxf.dirty = false
  rxf : s.rxf = o.rxf
  rxovf : s.rxovf = o.rxovf

variable {o s : State}

/-- A TICK whose RX step writes the receiver's registers alone stays in the frame. -/
theorem MidFrame.tick (h : MidFrame o s) {lvl : Bool} {u : State} (hr : rxStep lvl s = u)
    (hkeeps : u.cfg = s.cfg ∧ u.fault = s.fault ∧ u.rxf = s.rxf ∧ u.rxovf = s.rxovf) :
    MidFrame o (tickHandler lvl s) := by
  obtain ⟨hcfg, hfault, hrxf, hovf⟩ := hkeeps
  have hsame : (tickHandler lvl s).rxf = s.rxf := by rw [tickHandler_rxf, hr, hrxf, serviceFifo_clean h.clean]
  exact
    { running := h.running.tickHandler lvl
      fault := by rw [tickHandler_fault, hr, hfault, h.fault]
      cfg := by rw [tickHandler_cfg, hr, hcfg, h.cfg]
      clean := by rw [hsame, h.clean]
      rxf := by rw [hsame, h.rxf]
      rxovf := by rw [tickHandler_rxovf, hr, hovf, h.rxovf] }

/-- Armed, `m` TICKs from the first sample. -/
structure Armed (o : State) (m : Nat) (s : State) : Prop extends MidFrame o s where
  state : s.rxState = .armedCountdown
  left : ticksToSample s.cfg.rxCdMode s.rxCd = m

/-- Receiving, the first `n` bits of `b` captured, the phase toggle at `p`. -/
structure Captured (o : State) (b : Byte) (n : Nat) (p : Bool) (s : State) : Prop extends MidFrame o s where
  state : s.rxState = .receiving
  phase : s.rxPhase = p
  count : s.rxBitcnt.toNat = n
  bits : ∀ k, s.rxShift.getLsbD k = (decide (k < n) && b.getLsbD k)

variable {b : Byte} {n m : Nat} {p : Bool}

/-- The EDGE of a frame arms the receiver (R163, R164). -/
theorem armed_of_edge (h : Running s) (hf : s.fault = none) (hclean : s.rxf.dirty = false) (hidle : s.rxState = .idle)
    (c : BitVec 16) : Armed s (frameCountdown s.cfg.rxCdMode c s.thresh) (edgeHandler c s) := by
  have hrun := h.edgeHandler c
  rw [edgeHandler_idle c hidle] at hrun ⊢
  exact
    { running := hrun, fault := hf, cfg := rfl, clean := hclean, rxf := rfl
      rxovf := rxovf_setRxState _ _
      state := rxState_setRxState _ _
      left := (frameCountdown_eq _ _ _).symm }

/-- A TICK of the countdown, at any level (R170). -/
theorem Armed.counts (h : Armed o (m + 2) s) (lvl : Bool) : Armed o (m + 1) (tickHandler lvl s) := by
  obtain ⟨hcount, hleft⟩ := rxArmed_counts h.left lvl
  have hr := (rxStep_armed lvl h.state).trans hcount
  exact
    { h.toMidFrame.tick hr ⟨rfl, rfl, rfl, rfl⟩ with
      state := by rw [rxState_tickHandler, hr]; exact h.state
      left := by rw [tickHandler_cfg, tickHandler_rxCd, hr]; exact hleft }

theorem Armed.counts_to_sample (m : Nat) : ∀ {s : State}, Armed o (m + 1) s →
    Armed o 1 (afterTicks (List.replicate m false) s) := by
  induction m with
  | zero => exact id
  | succ m ih => exact fun h => ih (h.counts false)

theorem getLsbD_levelByte (lvl : Bool) (k : Nat) : (levelByte lvl).getLsbD k = (decide (k = 0) && lvl) := by
  cases lvl <;> simp [levelByte]

/-- The first sample captures bit 0 (R170). -/
theorem Armed.samples (h : Armed o 1 s) : Captured o b 1 false (tickHandler (b.getLsbD 0) s) := by
  have hr := (rxStep_armed (b.getLsbD 0) h.state).trans (rxArmed_samples h.left _)
  exact
    { h.toMidFrame.tick hr ⟨rfl, rfl, rfl, rxovf_setRxState _ _⟩ with
      state := by rw [rxState_tickHandler, hr]; exact rxState_setRxState _ _
      phase := by rw [tickHandler_rxPhase, hr]; rfl
      count := by rw [tickHandler_rxBitcnt, hr]; rfl
      bits := fun k => by
        rw [tickHandler_rxShift, hr]
        show (levelByte _).getLsbD k = _
        rw [getLsbD_levelByte]
        by_cases hk : k = 0 <;> simp [hk] }

/-- The non-acting TICK before a bit, at any level (R171). -/
theorem Captured.gated (h : Captured o b n false s) (lvl : Bool) : Captured o b n true (tickHandler lvl s) := by
  have hr := (rxStep_receiving lvl h.state).trans (rxReceiving_gated lvl h.phase)
  exact
    { h.toMidFrame.tick hr ⟨rfl, rfl, rfl, rfl⟩ with
      state := by rw [rxState_tickHandler, hr]; exact h.state
      phase := by rw [tickHandler_rxPhase, hr]
      count := by rw [tickHandler_rxBitcnt, hr]; exact h.count
      bits := by rw [tickHandler_rxShift, hr]; exact h.bits }

/-- The acting TICK of a data bit (R172). -/
theorem Captured.capture (h : Captured o b n true s) (hn : n < 8) :
    Captured o b (n + 1) false (tickHandler (b.getLsbD n) s) := by
  have hn' : s.rxBitcnt.toNat < 8 := h.count.trans_lt hn
  have hr := (rxStep_receiving (b.getLsbD n) h.state).trans (rxReceiving_data _ h.phase hn')
  exact
    { h.toMidFrame.tick hr ⟨rfl, rfl, rfl, rfl⟩ with
      state := by rw [rxState_tickHandler, hr]; exact h.state
      phase := by rw [tickHandler_rxPhase, hr]; rfl
      count := by
        rw [tickHandler_rxBitcnt, hr]
        exact (toNat_bitcnt_succ hn').trans (by rw [h.count])
      bits := fun k => by
        rw [tickHandler_rxShift, hr]
        show (s.rxShift ||| levelByte _ <<< s.rxBitcnt.toNat).getLsbD k = _
        rw [BitVec.getLsbD_or, h.bits, BitVec.getLsbD_shiftLeft, getLsbD_levelByte, h.count]
        obtain hk | rfl | hk := Nat.lt_trichotomy k n
        · simp [hk, Nat.lt_succ_of_lt hk]
        · simp [hn]
        · simp [show ¬ k < n by omega, show ¬ k < n + 1 by omega, show k - n ≠ 0 by omega] }

/-- The two TICKs of each of the bits 1 to `m` (R92). -/
theorem Captured.data_bits (h : Captured o b 1 false s) (m : Nat) (hm : m ≤ 7) :
    Captured o b (m + 1) false (afterTicks
      ((List.range m).flatMap fun k => [b.getLsbD (k + 1), b.getLsbD (k + 1)]) s) := by
  induction m with
  | zero => exact h
  | succ m ih =>
    rw [List.range_succ, List.flatMap_append, afterTicks_append]
    exact ((ih (by omega)).gated _).capture (by omega)

theorem Captured.rxShift_eq (h : Captured o b 8 p s) : s.rxShift = b :=
  BitVec.eq_of_getLsbD_eq fun k hk => by rw [h.bits, decide_eq_true hk, Bool.true_and]

/-! The stop bit. -/

/-- An append puts the byte at the end (R135, R142). -/
theorem contents_append {f : Fifo} {cap : Nat} (hw : f.data.wf = true) (hr : f.top.toNat < cap) (hcap : cap ≤ 255)
    (b : Byte) : contents { fifoWrite f f.top.toNat b with top := f.top + 1 } = contents f ++ [b] := by
  have htop : (f.top + 1).toNat = f.top.toNat + 1 := by bv_omega
  have hold : ∀ k ∈ List.range f.top.toNat, (f.data.write f.top.toNat b).read k = f.data.read k := fun k hk =>
    read_write_other _ _ _ _ (List.mem_range.mp hk).ne hw
  simp only [contents, fifoWrite, htop, List.range_succ, List.map_append, List.map_congr_left hold, List.map_singleton,
    read_write_same _ _ _ hw]

/-- The push of a byte joins it to `RXF` where there is room, and sets `RXOVF` where there is none (R173). -/
theorem rxPush_effect (h : Running s) :
    contents (rxPush s).rxf = contents s.rxf ++ (if s.rxf.top.toNat < s.cfg.capRx then [s.rxShift] else []) ∧
    (rxPush s).rxf.dirty = s.rxf.dirty ∧
    (rxPush s).rxovf = (s.rxovf || decide (s.rxf.top.toNat = s.cfg.capRx)) := by
  have htop := h.rxf.top
  obtain ⟨hroom, happ⟩ | ⟨hfull, happ⟩ := fifoAppend_cases s.cfg.capRx s.rxf s.rxShift <;> rw [rxPush, happ]
  · have hc := contents_append h.rxf.wf hroom (valid_capRx h.build).2 s.rxShift
    exact ⟨by rw [if_pos hroom, ← hc], rfl, by simp [hroom.ne, State.rxovf]⟩
  · have heq : s.rxf.top.toNat = s.cfg.capRx := by omega
    exact ⟨by simp [heq], rfl, by simp [heq, State.rxovf]⟩

theorem rxStopBit_rxf (stop : Bool) (s : State) :
    (rxStopBit stop s).rxf = if stop then (rxPush s).rxf else s.rxf := by cases stop <;> rfl

theorem rxStopBit_rxovf (stop : Bool) (s : State) :
    (rxStopBit stop s).rxovf = if stop then (rxPush s).rxovf else s.rxovf := by
  cases stop <;> exact rxovf_setRxState _ _

/-- The stop-bit slot pushes the byte where the level is high, and drops it where it is low (R173, R174). -/
theorem rxStopBit_effect (h : Running s) (stop : Bool) :
    contents (rxStopBit stop s).rxf =
      contents s.rxf ++ (if stop && decide (s.rxf.top.toNat < s.cfg.capRx) then [s.rxShift] else []) ∧
    (rxStopBit stop s).rxf.dirty = s.rxf.dirty ∧
    (rxStopBit stop s).rxovf = (s.rxovf || (stop && decide (s.rxf.top.toNat = s.cfg.capRx))) := by
  rw [rxStopBit_rxf, rxStopBit_rxovf]
  cases stop with
  | false => simp
  | true => simpa using rxPush_effect h

/-- The acting TICK of the stop bit ends the frame, the byte pushed or dropped (R173 to R175). -/
theorem Captured.stops (h : Captured o b 8 true s) (stop : Bool) :
    (tickHandler stop s).rxState = .idle ∧ (tickHandler stop s).edgeIe = true ∧
      contents (tickHandler stop s).rxf =
        contents o.rxf ++ (if stop && decide (o.rxf.top.toNat < o.cfg.capRx) then [b] else []) ∧
      (tickHandler stop s).rxovf = (o.rxovf || (stop && decide (o.rxf.top.toNat = o.cfg.capRx))) := by
  have hn : ¬ s.rxBitcnt.toNat < 8 := h.count.not_lt
  have hr := (rxStep_receiving stop h.state).trans (rxReceiving_stop stop h.phase hn)
  have hrun : Running { s with rxPhase := false } := { h.running with }
  obtain ⟨hcontents, hdirty, hovf⟩ := rxStopBit_effect hrun stop
  rw [rxState_tickHandler, tickHandler_edgeIe, tickHandler_rxf, tickHandler_rxovf, hr, ← h.rxf, ← h.cfg, ← h.rxovf,
    serviceFifo_clean (hdirty.trans h.clean), ← h.rxShift_eq]
  exact ⟨rxState_setRxState _ _, rfl, hcontents, hovf⟩

/-! The obligations. -/

/-- Settles O59: the EDGE arms the receiver, the TICKs count down, capture the eight bits and close the frame. -/
theorem frameReceived : Obligations.FrameReceived := by
  intro s c b stop hinv hs hf hw hc hidle hie hclean
  have hrun := running_of_inv hinv hs
  have hready : s.edgeReady = true := by simp [State.edgeReady, hie, hrun.gie]
  have harmed := armed_of_edge hrun hf hclean hidle c
  rw [rxFrame, runEvents, exec_edge_delivered hf hw hready hc]
  refine ⟨_, runEvents_ticks _ harmed.running harmed.fault, ?_⟩
  obtain ⟨m, hm⟩ := Nat.exists_eq_add_of_le' (one_le_frameCountdown s.cfg.rxCdMode c s.thresh)
  rw [hm] at harmed ⊢
  have hfirst : Captured s b 1 false _ := (harmed.counts_to_sample m).samples
  have hdata := hfirst.data_bits 7 le_rfl
  rw [frameLevels, afterTicks_append, afterTicks_cons, afterTicks_append]
  exact (hdata.gated stop).stops stop

end Sys2Proof.Proofs
end

section
/-! PROOFS. The Bit-Clock Configuration, and that the setting it gives stays while the timer runs
(40_bitclock.md R113 to R123). -/

namespace Sys2Proof.Proofs

open Sys2Proof.Machine Sys2Proof.Safety Sys2Proof.Laws

variable {cfg : Config} {s : State} {p b i : Nat}

/-! The choice of the prescaler (R115). -/

theorem prescalerServes_iff :
    prescalerServes cfg p i = true ↔ ∃ b, cfg.rates[i]? = some b ∧ pairValid cfg p b = true := by
  cases h : cfg.rates[i]? <;> simp [prescalerServes, h]

theorem prescalerSel_eq_some_iff {k : Nat} : prescalerSel cfg = some k ↔
    (∃ p, cfg.prescalers[k]? = some p ∧ ∀ i ∈ cfg.ratesEnabled, prescalerServes cfg p i = true) ∧
      ∀ j p, j < k → cfg.prescalers[j]? = some p → ¬ ∀ i ∈ cfg.ratesEnabled, prescalerServes cfg p i = true := by
  simp only [prescalerSel, List.findIdx?_eq_some_iff_getElem, List.all_eq_true, List.getElem?_eq_some_iff]
  constructor
  · rintro ⟨hk, hall, hfirst⟩
    refine ⟨⟨_, ⟨hk, rfl⟩, hall⟩, ?_⟩
    rintro j p hj ⟨-, rfl⟩
    exact hfirst j hj
  · rintro ⟨⟨p, ⟨hk, rfl⟩, hall⟩, hfirst⟩
    exact ⟨hk, hall, fun j hj => hfirst j _ hj ⟨hj.trans hk, rfl⟩⟩

theorem prescalerSel_eq_none_iff : prescalerSel cfg = none ↔
    ∀ p ∈ cfg.prescalers, ¬ ∀ i ∈ cfg.ratesEnabled, prescalerServes cfg p i = true := by
  simp only [prescalerSel, List.findIdx?_eq_none_iff, ← List.all_eq_true, Bool.not_eq_true]

/-- A configuration without a prescaler is none a machine exists for (R116). -/
theorem valid_eq_false_of_prescalerSel (h : prescalerSel cfg = none) : cfg.valid = false := by
  simp [Config.valid, h]

theorem timerSetting_of_prescalerSel_none (h : prescalerSel cfg = none) (i : Nat) : timerSetting cfg i = none := by
  simp [timerSetting, h]

theorem step_of_invalid (hf : s.fault = none) (hv : s.cfg.valid = false) : step s = .refused .noMachine := by
  simp [step, fetch, hf, hv]

/-! The error of the tick rate (R113, R114). -/

theorem tickCycles_of_timerSetting {ts : TimerSetting} (h : timerSetting cfg i = some ts)
    (hp : cfg.prescalers[ts.ps]? = some p) : tickCycles cfg i = some (p * (ts.reload + 1)) := by
  simp [tickCycles, h, hp]

/-- The error term is the distance of `F_CLK` from the real rate. -/
theorem rateError_bounds (fClk p b : Nat) :
    fClk ≤ p * divisor fClk p b * (2 * b) + rateError fClk p b ∧
      p * divisor fClk p b * (2 * b) ≤ fClk + rateError fClk p b := by
  simp only [rateError]
  omega

/-- What a valid pair is, in terms of the reload value. -/
theorem pairValid_bounds (h : pairValid cfg p b = true) :
    divisor cfg.fClk p b = reloadFor cfg.fClk p b + 1 ∧
      cfg.reloadMin ≤ reloadFor cfg.fClk p b ∧ reloadFor cfg.fClk p b ≤ 2 ^ cfg.width.bits - 1 ∧
      rateError cfg.fClk p b * 1000000 ≤ cfg.maxErrPpm * (p * divisor cfg.fClk p b * (2 * b)) := by
  simp only [pairValid, Bool.and_eq_true, decide_eq_true_eq] at h
  obtain ⟨⟨⟨hdiv, hmin⟩, hmax⟩, herr⟩ := h
  exact ⟨(Nat.sub_add_cancel hdiv).symm, hmin, hmax, herr⟩

/-- The tick rate of a valid pair is within `MAX_ERR_PPM` of `2 * b`, on either side. -/
theorem pairValid_rate (h : pairValid cfg p b = true) :
    cfg.fClk * 1000000 ≤ (1000000 + cfg.maxErrPpm) * (p * (reloadFor cfg.fClk p b + 1) * (2 * b)) ∧
      p * (reloadFor cfg.fClk p b + 1) * (2 * b) * 1000000 ≤
        cfg.fClk * 1000000 + cfg.maxErrPpm * (p * (reloadFor cfg.fClk p b + 1) * (2 * b)) := by
  obtain ⟨hdiv, -, -, herr⟩ := pairValid_bounds h
  obtain ⟨hbelow, habove⟩ := rateError_bounds cfg.fClk p b
  rw [← hdiv, Nat.add_mul]
  constructor <;> linarith

/-! The timer's setting in a run (R120). -/

/-- The build and what INITIALISE programs of the timer and its interrupt (R41 to R47). -/
def timerPart (s : State) : Config × Bool × Bool × BitVec 3 × BitVec 16 × BitVec 16 × BitVec 3 × Bool :=
  (s.cfg, s.tmrRun, s.tickIe, s.tmrPs, s.tmrTop, s.thresh, s.rateSel, s.gie)

theorem timerPart_tickHandler (lvl : Bool) (hn : s.rxBitcnt.toNat ≤ 8) :
    timerPart (tickHandler lvl s) = timerPart s := by
  obtain ⟨_, _, _, _, _, _, htick⟩ := tickHandler_writes lvl s
  obtain ⟨_, _, _, _, _, _, _, hrx⟩ := rxStep_writes lvl hn
  rw [htick, hrx]
  split <;> rfl

theorem timerPart_edgeHandler (c : BitVec 16) (s : State) : timerPart (edgeHandler c s) = timerPart s := by
  by_cases hs : s.rxState = .idle
  · rw [edgeHandler_idle c hs]; rfl
  · rw [edgeHandler_busy c hs]

/-- Of the operations only the INITIALISE that starts the timer writes its part (R222 to R224). -/
theorem timerPart_exec {i : Instr} {t : State} (h : exec i s = .next t) :
    timerPart t = timerPart s ∨ (s.tmrRun = false ∧ t.cfg = s.cfg) := by
  cases exec_effect h with
  | initDone ts _ hrun => exact .inr ⟨hrun, rfl⟩
  | @tick lvl _ _ hl => exact .inl (timerPart_tickHandler lvl (rxBitcnt_le_of_legal hl))
  | @edgeTaken c => exact .inl (timerPart_edgeHandler c s)
  | @edgeFire c => exact .inl (timerPart_edgeHandler c { s with edgePend := false })
  | _ => exact .inl (by simp [timerPart])

/-! The obligations. -/

/-- Settles O17: `findIdx?` answers the first prescaler that passes, and none where no prescaler passes. -/
theorem prescalerIsSmallestValid : Obligations.PrescalerIsSmallestValid := by
  intro cfg
  simp only [← prescalerServes_iff]
  exact ⟨fun _ => prescalerSel_eq_some_iff, prescalerSel_eq_none_iff⟩

/-- Settles O18: the setting's prescaler and rate are a valid pair, which bounds the error on either side. -/
theorem tickRateWithinBound : Obligations.TickRateWithinBound := by
  intro cfg i ts h
  obtain ⟨p, b, hsel, hp, hb, hi, hreload, hthresh⟩ := timerSetting_some h
  obtain ⟨b', hb', hvalid⟩ := prescalerServes_iff.mp (prescalerSel_serves hsel hp hi)
  obtain rfl : b = b' := Option.some_inj.mp (hb.symm.trans hb')
  obtain ⟨-, hmin, hmax, -⟩ := pairValid_bounds hvalid
  have hrate := pairValid_rate hvalid
  rw [← hreload] at hmin hmax hrate
  exact ⟨p, b, hp, hb, hi, hsel, tickCycles_of_timerSetting h hp, hmin, hmax,
    fun ht => by rw [hthresh, threshFor, ht], hrate⟩

/-- Settles O53: the one operation that programs the timer does so while it is stopped. -/
theorem timerFixedOnceRunning : Obligations.TimerFixedOnceRunning := by
  intro i s t h
  obtain hpart | ⟨hstopped, hcfg⟩ := timerPart_exec h
  · simp only [timerPart, Prod.mk.injEq] at hpart
    obtain ⟨hcfg, hrun, hset⟩ := hpart
    exact ⟨hcfg, fun hr => ⟨hrun.trans hr, hset⟩⟩
  · exact ⟨hcfg, fun hr => by simp [hstopped] at hr⟩

/-- Settles O8: without a prescaler the build is not valid, and the calculator gives no setting. -/
theorem noMachineWithoutPrescaler : Obligations.NoMachineWithoutPrescaler := fun _ hf hsel =>
  ⟨step_of_invalid hf (valid_eq_false_of_prescalerSel hsel), timerSetting_of_prescalerSel_none hsel⟩

/-- Settles O16: the calculator is evaluated on each set of rates and at each corner. -/
theorem bitClockWorkedResults : Obligations.BitClockWorkedResults := by
  unfold Obligations.BitClockWorkedResults
  decide

end Sys2Proof.Proofs
end

section
/-! PROOFS. The FIFOs as queues: an append joins a byte at the end, a compaction takes the first, and a TICK does
no more than these to either (41_fifo.md R135 to R143). -/

namespace Sys2Proof.Proofs

open Sys2Proof.Machine Sys2Proof.Safety Sys2Proof.Laws

variable {f g : Fifo} {cap : Nat} {b : Byte} {s : State} {lvl : Bool}

/-! `compact_front` (R137). -/

theorem compactFront_empty (h : f.top = 0) : compactFront f = f := if_pos h

theorem toNat_top_compactFront (f : Fifo) : (compactFront f).top.toNat = f.top.toNat - 1 := by
  rw [compactFront_top]
  split <;> bv_omega

theorem read_compactFront (hw : f.data.wf = true) (ht : f.top ≠ 0) (a : Nat) :
    (compactFront f).data.read a = if a < f.top.toNat - 1 then f.data.read (a + 1) else f.data.read a := by
  rw [compactFront, if_neg ht]
  exact read_shiftDown _ hw _ a

/-- A compaction takes the first of the valid bytes and keeps the order of the rest (R137, R142). -/
theorem contents_compactFront (hw : f.data.wf = true) : contents (compactFront f) = (contents f).tail := by
  by_cases ht : f.top = 0
  · simp [compactFront_empty ht, contents, ht]
  · obtain ⟨n, hn⟩ : ∃ n, f.top.toNat = n + 1 := Nat.exists_eq_succ_of_ne_zero (by bv_omega)
    have hshift : ∀ k ∈ List.range n, (compactFront f).data.read k = f.data.read (k + 1) := fun k hk => by
      rw [read_compactFront hw ht, hn, Nat.add_sub_cancel, if_pos (List.mem_range.mp hk)]
    rw [contents, contents, toNat_top_compactFront, hn, Nat.add_sub_cancel, List.map_congr_left hshift,
      List.range_succ_eq_map, List.map_cons, List.tail_cons, List.map_map]
    rfl

/-! `append` (R135). -/

theorem fifoAppend_eq_none_iff : fifoAppend cap f b = none ↔ cap ≤ f.top.toNat := by
  simp [fifoAppend]

theorem fifoAppend_keeps_flags (h : fifoAppend cap f b = some g) : g.lock = f.lock ∧ g.dirty = f.dirty := by
  obtain ⟨-, e⟩ | ⟨-, e⟩ := fifoAppend_cases cap f b <;> rw [e] at h <;> cases h
  exact ⟨rfl, rfl⟩

theorem contents_fifoAppend (h : fifoAppend cap f b = some g) (hw : f.data.wf = true) (hcap : cap ≤ 255) :
    contents g = contents f ++ [b] := by
  obtain ⟨hr, e⟩ | ⟨-, e⟩ := fifoAppend_cases cap f b <;> rw [e] at h <;> cases h
  exact contents_append hw hr hcap b

/-! The compaction service (R138). -/

theorem serviceFifo_flags (f : Fifo) :
    (serviceFifo f).lock = f.lock ∧ (serviceFifo f).dirty = (f.dirty && f.lock) := by
  obtain ⟨hd, hk, h⟩ | ⟨hidle, h⟩ := serviceFifo_cases f <;> rw [h]
  · simp [hd, hk]
  · obtain hd | hk := hidle
    · simp [hd]
    · simp [hk]

theorem contents_serviceFifo (hw : f.data.wf = true) :
    contents (serviceFifo f) = if f.dirty && !f.lock then (contents f).tail else contents f := by
  obtain ⟨hd, hk, h⟩ | ⟨hidle, h⟩ := serviceFifo_cases f <;> rw [h]
  · rw [hd, hk, ← contents_compactFront hw]; rfl
  · obtain hd | hk := hidle
    · simp [hd]
    · simp [hk]

/-! What the RX step of a TICK makes of `RXF` (R173 to R176). -/

theorem rxStep_of_frameEnds (lvl : Bool) (h : frameEnds s = true) :
    rxStep lvl s = rxStopBit lvl { s with rxPhase := false } := by
  simp only [frameEnds, rxActs, Bool.and_eq_true, decide_eq_true_eq] at h
  obtain ⟨⟨hs, hp⟩, h8⟩ := h
  exact (rxStep_receiving lvl hs).trans (rxReceiving_stop lvl hp h8.not_lt)

/-- Only the TICK that ends a frame writes `RXF`. -/
theorem rxStep_rxf_of_not_frameEnds (hn : s.rxBitcnt.toNat ≤ 8) (h : frameEnds s = false) :
    (rxStep lvl s).rxf = s.rxf := by
  cases hs : s.rxState with
  | idle => rw [rxStep_idle lvl hs]
  | reserved => rw [rxStep_reserved lvl hs]
  | armedCountdown =>
    rw [rxStep_armed lvl hs]
    obtain ⟨-, e⟩ | e := rxArmed_cases lvl s <;> rw [e]
    rfl
  | receiving =>
    rw [rxStep_receiving lvl hs]
    cases hp : s.rxPhase with
    | false => rw [rxReceiving_gated lvl hp]
    | true =>
      have h8 : s.rxBitcnt.toNat ≠ 8 := by simpa [frameEnds, rxActs, hs, hp] using h
      rw [rxReceiving_data lvl hp (by omega)]
      rfl

theorem rxStep_keeps_rxf_flags (lvl : Bool) (s : State) :
    (rxStep lvl s).rxf.lock = s.rxf.lock ∧ (rxStep lvl s).rxf.dirty = s.rxf.dirty := by
  obtain e | e := rxStep_rxf lvl s
  · simp [e]
  · exact fifoAppend_keeps_flags e

theorem rxStep_rxf_wf (hw : s.rxf.data.wf = true) : (rxStep lvl s).rxf.data.wf = true := by
  obtain e | e := rxStep_rxf lvl s
  · rwa [e]
  · exact fifoAppend_wf e hw

/-- The push joins the received byte at the end of `RXF`, or nothing on FULL (R135, R173). -/
theorem contents_rxPush (hw : s.rxf.data.wf = true) (hcap : s.cfg.capRx ≤ 255) :
    contents (rxPush s).rxf =
      contents s.rxf ++ if s.rxf.top.toNat < s.cfg.capRx then [s.rxShift] else [] := by
  obtain ⟨hroom, e⟩ | ⟨hfull, e⟩ := fifoAppend_cases s.cfg.capRx s.rxf s.rxShift <;> rw [rxPush, e]
  · rw [if_pos hroom]; exact contents_fifoAppend e hw hcap
  · simp [hfull.not_gt]

/-- The RX step joins to `RXF` what the TICK receives. -/
theorem contents_rxStep (hw : s.rxf.data.wf = true) (hcap : s.cfg.capRx ≤ 255) (hn : s.rxBitcnt.toNat ≤ 8) :
    contents (rxStep lvl s).rxf = contents s.rxf ++ received lvl s := by
  cases h : frameEnds s with
  | false => simp [rxStep_rxf_of_not_frameEnds hn h, received, h]
  | true =>
    rw [rxStep_of_frameEnds lvl h, rxStopBit_rxf]
    cases lvl with
    | false => simp [received]
    | true => simpa [received, h] using contents_rxPush (s := { s with rxPhase := false }) hw hcap

/-! The obligations. -/

/-- Settles O49: the loop of the compaction reads each slot before it writes it. -/
theorem compactFrontShiftsDown : Obligations.CompactFrontShiftsDown := by
  intro f hw
  refine ⟨compactFront_empty, fun ht => ⟨toNat_top_compactFront f, compactFront_lock f, compactFront_dirty f, ?_, ?_⟩⟩
  · intro a ha
    rw [read_compactFront hw ht, if_pos ha]
  · intro a ha
    rw [read_compactFront hw ht, if_neg ha.not_gt]

/-- Settles O50: the queue laws of append and compaction. -/
theorem fifoKeepsArrivalOrder : Obligations.FifoKeepsArrivalOrder := fun _ _ _ hw hcap =>
  ⟨fifoAppend_eq_none_iff, fun _ h => ⟨contents_fifoAppend h hw hcap, fifoAppend_keeps_flags h⟩,
    contents_compactFront hw⟩

/-- Settles O45: a TICK services what the RX step leaves of `RXF`, and that step keeps the lock and `DIRTY`. -/
theorem tickReceiveFifo : Obligations.TickReceiveFifo := by
  intro s lvl hcan hw hcap
  refine ⟨_, exec_tick hcan lvl, ?_⟩
  obtain ⟨-, -, hlegal⟩ := hcan
  obtain ⟨hlock, hdirty⟩ := rxStep_keeps_rxf_flags lvl s
  obtain ⟨hlock', hdirty'⟩ := serviceFifo_flags (rxStep lvl s).rxf
  rw [tickHandler_rxf, hlock', hdirty', contents_serviceFifo (rxStep_rxf_wf hw), hlock, hdirty,
    contents_rxStep hw hcap (rxBitcnt_le_of_legal hlegal)]
  exact ⟨rfl, rfl, rfl⟩

/-- Settles O46: a TICK services what the TX step leaves of `TXF`, and a service with nothing dirty does nothing. -/
theorem tickTransmitFifo : Obligations.TickTransmitFifo := by
  intro s lvl hcan hw hclean
  refine ⟨_, exec_tick hcan lvl, ?_⟩
  obtain ⟨-, -, hlegal⟩ := hcan
  have htick : (tickHandler lvl s).txf = if txRemoves s then compactFront s.txf else s.txf := by
    rw [tickHandler_txf lvl (rxBitcnt_le_of_legal hlegal) (txBitcnt_le_of_legal hlegal), serviceFifo_clean]
    split <;> simp [hclean]
  rw [htick]
  cases txRemoves s with
  | false => exact ⟨rfl, hclean, rfl⟩
  | true => exact ⟨compactFront_lock _, (compactFront_dirty _).trans hclean, contents_compactFront hw⟩

end Sys2Proof.Proofs
end

section
/-! PROOFS. The receiver, event by event: an EDGE in every state, and a TICK in `IDLE`, in the countdown, at a data
bit and at the stop bit (42_rx_engine.md R163 to R175). -/

namespace Sys2Proof.Proofs

open Sys2Proof.Machine Sys2Proof.Safety Sys2Proof.Laws

variable {s : State} {c : BitVec 16}

/-! The edge (R163 to R166, R262). -/

/-- A write of `RXS` leaves the bits above it (R29). -/
theorem getLsbD_setRxs (st : BitVec 8) (x : RxState) {k : Nat} (hk : 2 ≤ k) :
    (setRxs st x).getLsbD k = st.getLsbD k := by
  by_cases hk8 : k < 8
  · have hmask : (0xFC#8).getLsbD k = true := (by decide : ∀ k < 8, 2 ≤ k → (0xFC#8).getLsbD k = true) k hk8 hk
    have hcode : x.code.getLsbD k = false := BitVec.getLsbD_of_ge _ _ hk
    simp [setRxs, hmask, hcode]
  · rw [BitVec.getLsbD_of_ge _ _ (not_lt.mp hk8), BitVec.getLsbD_of_ge _ _ (not_lt.mp hk8)]

theorem countdownFor_eq (c thresh : BitVec 16) :
    countdownFor c thresh = if c.toNat < thresh.toNat then 2 else 3 := by
  simp [countdownFor, belowThreshold]

theorem exec_edge_lost (hf : s.fault = none) (hw : (Instr.edge c).wellFormed s.cfg = true) (hr : s.edgeReady = false)
    (hl : s.cfg.edgeLatch ≠ .latched) : exec (.edge c) s = .next s := by
  simp [exec, execEdge, eventStep_run hf hw, hr, hl]

theorem exec_edge_latched (hf : s.fault = none) (hw : (Instr.edge c).wellFormed s.cfg = true)
    (hr : s.edgeReady = false) (hl : s.cfg.edgeLatch = .latched) :
    exec (.edge c) s = .next { s with edgePend := true } := by
  simp [exec, execEdge, eventStep_run hf hw, hr, hl]

/-! What a TICK leaves of the receiver (R201, R260). -/

/-- A TICK does to the receiver what its RX step does. -/
theorem exec_tick_rx (hcan : canTick s) (lvl : Bool) : ∃ t, exec (.tick lvl) s = .next t ∧
    t.rxState = (rxStep lvl s).rxState ∧ t.rxShift = (rxStep lvl s).rxShift ∧
    t.rxBitcnt = (rxStep lvl s).rxBitcnt ∧ t.rxPhase = (rxStep lvl s).rxPhase ∧ t.rxCd = (rxStep lvl s).rxCd ∧
    t.edgeIe = (rxStep lvl s).edgeIe ∧ t.rxovf = (rxStep lvl s).rxovf :=
  ⟨_, exec_tick hcan lvl, by simp [rxState_tickHandler]⟩

/-! The countdown (R170). -/

/-- The TICK that samples, in either mode, is the last of the countdown. -/
theorem ticksToSample_eq_one_iff {mode : RxCdMode} {cd : BitVec 2} : ticksToSample mode cd = 1 ↔
    (mode = .testThenDecrement ∧ cd = 0) ∨ (mode = .decrementThenTest ∧ cd = 1) := by
  cases mode <;> revert cd <;> decide

/-- An armed receiver has a sample to come: the literal mode never counts from 0 (R54(f)). -/
theorem one_le_ticksToSample (hl : s.legal = true) (hs : s.rxState = .armedCountdown) :
    1 ≤ ticksToSample s.cfg.rxCdMode s.rxCd := by
  cases hm : s.cfg.rxCdMode with
  | testThenDecrement => simp [ticksToSample]
  | decrementThenTest =>
    simp only [State.legal, Bool.and_eq_true, decide_eq_true_eq] at hl
    have hcd : s.rxCd ≠ 0 := by tauto
    simp only [ticksToSample]
    bv_omega

/-! The data bit and the stop bit (R171 to R175). -/

theorem bitcnt_lt_of_not_frameEnds (hl : s.legal = true) (hs : s.rxState = .receiving) (hp : s.rxPhase = true)
    (h : frameEnds s = false) : s.rxBitcnt.toNat < 8 := by
  have hle := rxBitcnt_le_of_legal hl
  have hne : s.rxBitcnt.toNat ≠ 8 := by simpa [frameEnds, rxActs, hs, hp] using h
  omega

/-- The capture ORs the level into the accumulator at the bit index (R172). -/
theorem getLsbD_rxDataBit (lvl : Bool) (hn : s.rxBitcnt.toNat < 8) (k : Nat) :
    (rxDataBit lvl s).rxShift.getLsbD k = (s.rxShift.getLsbD k || (decide (k = s.rxBitcnt.toNat) && lvl)) := by
  show (s.rxShift ||| levelByte lvl <<< s.rxBitcnt.toNat).getLsbD k = _
  rw [BitVec.getLsbD_or, BitVec.getLsbD_shiftLeft, getLsbD_levelByte]
  obtain hk | rfl | hk := Nat.lt_trichotomy k s.rxBitcnt.toNat
  · simp [hk, hk.ne]
  · simp [hn]
  · simp [hk.ne', show k - s.rxBitcnt.toNat ≠ 0 by omega]

/-- The stop bit sets `RXOVF` where a byte finds `RXF` full, and else keeps it (R173, R174). -/
theorem rxStopBit_rxovf_eq (lvl : Bool) (s : State) :
    (rxStopBit lvl s).rxovf = (s.rxovf || (lvl && decide (s.cfg.capRx ≤ s.rxf.top.toNat))) := by
  obtain ⟨f, h⟩ := rxStopBit_writes lvl s
  rw [h, rxovf_setRxState]
  cases lvl && decide (s.cfg.capRx ≤ s.rxf.top.toNat) <;> simp [State.rxovf]

/-! The obligations. -/

/-- Settles O35: the delivered EDGE runs the edge handler, whose write of `RXS` leaves the other status bits. -/
theorem edgeArmsIdleEngine : Obligations.EdgeArmsIdleEngine := by
  intro s c hf hw he hg hc hidle
  have hr : s.edgeReady = true := by simp [State.edgeReady, he, hg]
  refine ⟨setRxs s.status .armedCountdown, ?_, rxsOf_setRxs _ _, fun k hk => getLsbD_setRxs _ _ hk⟩
  rw [exec_edge_delivered hf hw hr hc, edgeHandler_idle c hidle, countdownFor_eq]
  rfl

/-- Settles O36: the edge handler leaves a busy receiver alone, and an EDGE that is not delivered does not run it. -/
theorem edgeIgnoredLostOrLatched : Obligations.EdgeIgnoredLostOrLatched := by
  intro s c hf hw
  refine ⟨fun he hg hc hbusy => ?_, fun hoff => ?_⟩
  · rw [exec_edge_delivered hf hw (by simp [State.edgeReady, he, hg]) hc, edgeHandler_busy c hbusy]
  · have hr : s.edgeReady = false := by obtain h | h := hoff <;> simp [State.edgeReady, h]
    exact ⟨fun hl => exec_edge_lost hf hw hr (by simp [hl]), fun hl => exec_edge_latched hf hw hr hl⟩

/-- Settles O41: in `IDLE` the RX step is nothing, and INITIALISE, the one command that writes `RXS`, writes `IDLE`. -/
theorem rxIdleLeftOnlyByEdge : Obligations.RxIdleLeftOnlyByEdge := by
  intro s hs
  refine ⟨fun lvl hcan => ?_, fun i t h hleft => ?_⟩
  · simpa only [rxStep_idle lvl hs, hs] using exec_tick_rx hcan lvl
  · cases exec_effect h with
    | edgeTaken | edgeLatched | edgeLost => exact ⟨_, .inl rfl⟩
    | edgeFire => exact ⟨_, .inr rfl⟩
    | initDone ts => exact absurd (by decide : rxsOf 0x00 = .idle) hleft
    | @tick lvl => exact absurd (by rw [rxState_tickHandler, rxStep_idle lvl hs, hs]) hleft
    | _ => exact absurd hs (by simpa [State.rxState] using hleft)

/-- Settles O42: more than one TICK before the sample the TICK counts down, and with one left it takes the sample. -/
theorem rxCountdownAndFirstSample : Obligations.RxCountdownAndFirstSample := by
  intro s lvl hcan hs samples
  obtain ⟨t, ht, hstate, hshift, hcount, hphase, hcd, hedge, hovf⟩ := exec_tick_rx hcan lvl
  refine ⟨t, ht, ?_⟩
  rw [hstate, hshift, hcount, hphase, hcd, hedge, hovf, rxStep_armed lvl hs]
  obtain ⟨-, -, hlegal⟩ := hcan
  have hone := one_le_ticksToSample hlegal hs
  by_cases hsample : samples
  · rw [rxArmed_samples (ticksToSample_eq_one_iff.mpr hsample)]
    exact ⟨rfl, rxovf_setRxState _ _, fun h => absurd hsample h,
      fun _ => ⟨rxState_setRxState _ _, rfl, rfl, rfl, rfl⟩⟩
  · have hmore : ticksToSample s.cfg.rxCdMode s.rxCd ≠ 1 := fun h => hsample (ticksToSample_eq_one_iff.mp h)
    obtain ⟨m, hm⟩ := Nat.exists_eq_add_of_le' (show 2 ≤ ticksToSample s.cfg.rxCdMode s.rxCd by omega)
    obtain ⟨hdown, hleft⟩ := rxArmed_counts hm lvl
    rw [hdown]
    have hless : (s.rxCd - 1).toNat + 1 = s.rxCd.toNat := by
      unfold ticksToSample at hm hleft
      omega
    exact ⟨rfl, rfl, fun _ => ⟨hs, hless, rfl, rfl, rfl⟩, fun h => absurd h hsample⟩

/-- Settles O43: the TICK of phase 0 is gated, and the acting one captures a bit where the frame does not end. -/
theorem rxPhaseGateAndDataBit : Obligations.RxPhaseGateAndDataBit := by
  intro s lvl hcan hs hmid
  obtain ⟨t, ht, hstate, hshift, hcount, hphase, hcd, hedge, hovf⟩ := exec_tick_rx hcan lvl
  refine ⟨t, ht, ?_⟩
  rw [hstate, hshift, hcount, hphase, hcd, hedge, hovf, rxStep_receiving lvl hs]
  obtain ⟨-, -, hlegal⟩ := hcan
  cases hp : s.rxPhase with
  | false =>
    rw [rxReceiving_gated lvl hp]
    exact ⟨hs, rfl, rfl, rfl, rfl, fun _ => ⟨rfl, rfl⟩, fun h => absurd h (by decide)⟩
  | true =>
    have hn := bitcnt_lt_of_not_frameEnds hlegal hs hp hmid
    rw [rxReceiving_data lvl hp hn]
    exact ⟨hs, rfl, rfl, rfl, rfl, fun h => absurd h (by decide),
      fun _ => ⟨getLsbD_rxDataBit (s := { s with rxPhase := false }) lvl hn, toNat_bitcnt_succ hn⟩⟩

/-- Settles O44: the RX step takes the stop bit before the service compacts `RXF`. -/
theorem rxStopBitEndsFrame : Obligations.RxStopBitEndsFrame := by
  intro s lvl hcan hend
  obtain ⟨t, ht, hstate, hshift, hcount, hphase, hcd, hedge, hovf⟩ := exec_tick_rx hcan lvl
  refine ⟨t, ht, ?_⟩
  rw [hstate, hshift, hcount, hphase, hcd, hedge, hovf, rxStep_of_frameEnds lvl hend]
  refine ⟨rxState_setRxState _ _, ?_⟩
  rw [rxStopBit_rxovf_eq]
  obtain ⟨f, h⟩ := rxStopBit_writes lvl { s with rxPhase := false }
  rw [h]
  split <;> exact ⟨rfl, rfl, rfl, rfl, rfl, rfl⟩

end Sys2Proof.Proofs
end

section
/-! PROOFS. The transmitter, TICK by TICK: the gate, the start bit, the data bits, the stop bit with its compaction,
and a whole transmitted frame (43_tx_engine.md R190 to R201). -/

namespace Sys2Proof.Proofs

open Sys2Proof.Machine Sys2Proof.Safety Sys2Proof.Laws

variable {s u o : State} {lvl : Bool}

/-! The transmitter's part of the state, and what a TICK leaves of it (R201, R260). -/

/-- What the TX step reads and writes: `TXS`, `TX_PHASE`, the line, `TX_SHIFT`, `TX_BITCNT` and `TXF` (R201). -/
def txPart (s : State) : TxState × Bool × Bool × BitVec 8 × BitVec 4 × Fifo :=
  (s.txState, s.txPhase, s.txd, s.txShift, s.txBitcnt, s.txf)

theorem txPart_eq_iff {x : TxState} {p d : Bool} {sh : BitVec 8} {n : BitVec 4} {f : Fifo} :
    txPart s = (x, p, d, sh, n, f) ↔
      s.txState = x ∧ s.txPhase = p ∧ s.txd = d ∧ s.txShift = sh ∧ s.txBitcnt = n ∧ s.txf = f := by
  simp [txPart]

/-! What an acting tick makes of it, by the engine's state (R192 to R196). -/

theorem txPart_txCompact (locked : TxState) (s : State) : txPart (txCompact locked s) =
    (if s.txf.lock then locked else .idle, s.txPhase, s.txd, s.txShift, s.txBitcnt,
      if s.txf.lock then s.txf else compactFront s.txf) := by
  have hf := txCompact_txf locked s
  obtain ⟨hk, h⟩ | ⟨hk, h⟩ := txCompact_cases locked s <;> rw [hk] at hf ⊢
  · rw [txPart, hf, h, txState_setTxState]; rfl
  · rw [txPart, hf, h, txState_setTxState]; rfl

theorem txPart_txAct_idle_empty (hs : s.txState = .idle) (hbyte : ¬ 1 ≤ s.txf.top.toNat) :
    txPart (txAct s) = (.idle, s.txPhase, s.txd, s.txShift, s.txBitcnt, s.txf) := by
  rw [txAct_idle hs, txIdle_empty hbyte, txPart, hs]

theorem txPart_txAct_idle_pending (hs : s.txState = .idle) (hbyte : 1 ≤ s.txf.top.toNat) :
    txPart (txAct s) = (.sentStartBit, s.txPhase, false, s.txf.data.read 0, 0, s.txf) := by
  rw [txAct_idle hs, txIdle_pending hbyte, txPart, txState_setTxState]; rfl

theorem txPart_txAct_sentStartBit (hs : s.txState = .sentStartBit) : txPart (txAct s) =
    (.sendingData, s.txPhase, s.txShift.getLsbD 0, s.txShift, s.txBitcnt + 1, s.txf) := by
  rw [txAct_sentStartBit hs, txStartSent, txPart, txState_setTxState]; rfl

theorem txPart_txAct_sendingData (hs : s.txState = .sendingData) (hn : s.txBitcnt.toNat < 8) : txPart (txAct s) =
    (.sendingData, s.txPhase, s.txShift.getLsbD s.txBitcnt.toNat, s.txShift, s.txBitcnt + 1, s.txf) := by
  rw [txAct_sendingData hs, txSending_bit hn, ← hs]; rfl

/-- Either attempt is the compaction, the line high from the first on (R195, R196). -/
theorem txPart_txAct_atCompaction (h : atCompaction s = true) : txPart (txAct s) =
    (if s.txf.lock then .bufferLocked else .idle, s.txPhase, s.txd || decide (s.txState = .sendingData), s.txShift,
      s.txBitcnt, if s.txf.lock then s.txf else compactFront s.txf) := by
  simp only [atCompaction, Bool.or_eq_true, Bool.and_eq_true, decide_eq_true_eq] at h
  obtain ⟨hs, hn⟩ | hs := h
  · rw [txAct_sendingData hs, txSending_stop hn.not_lt, txPart_txCompact]; simp [hs]
  · rw [txAct_bufferLocked hs, txPart_txCompact]; simp [hs]

/-! What a TICK makes of it: nothing of the receiver's reaches it (R176, R201, R260). -/

theorem txPart_txAct_congr (hn : u.txBitcnt.toNat ≤ 8) (h : txPart s = txPart u) :
    txPart (txAct s) = txPart (txAct u) := by
  obtain ⟨hstate, hphase, htxd, hshift, hcount, htxf⟩ := txPart_eq_iff.mp h
  have attempt (hat : atCompaction u = true) : txPart (txAct s) = txPart (txAct u) := by
    have hat' : atCompaction s = true := by simpa only [atCompaction, hstate, hcount] using hat
    rw [txPart_txAct_atCompaction hat, txPart_txAct_atCompaction hat', hstate, hphase, htxd, hshift, hcount, htxf]
  cases hs : u.txState with
  | idle =>
    by_cases hp : 1 ≤ u.txf.top.toNat
    · rw [txPart_txAct_idle_pending hs hp, txPart_txAct_idle_pending (hstate.trans hs) (htxf ▸ hp), hphase, htxf]
    · rw [txPart_txAct_idle_empty hs hp, txPart_txAct_idle_empty (hstate.trans hs) (htxf ▸ hp), hphase, htxd, hshift,
        hcount, htxf]
  | sentStartBit =>
    rw [txPart_txAct_sentStartBit hs, txPart_txAct_sentStartBit (hstate.trans hs), hphase, hshift, hcount, htxf]
  | sendingData =>
    by_cases hn' : u.txBitcnt.toNat < 8
    · rw [txPart_txAct_sendingData hs hn', txPart_txAct_sendingData (hstate.trans hs) (hcount ▸ hn'), hphase, hshift,
        hcount, htxf]
    · have h8 : u.txBitcnt.toNat = 8 := by omega
      exact attempt (by simp [atCompaction, hs, h8])
  | bufferLocked => exact attempt (by simp [atCompaction, hs])

theorem txPart_txStep_gated (hp : s.txPhase = false) :
    txPart (txStep s) = (s.txState, true, s.txd, s.txShift, s.txBitcnt, s.txf) := by
  rw [txStep_gated hp]; rfl

theorem txStep_txPhase (s : State) : (txStep s).txPhase = !s.txPhase := by
  cases hp : s.txPhase with
  | false => rw [txStep_gated hp]; rfl
  | true =>
    obtain ⟨x, d, sh, n, f, h⟩ := txAct_writes { s with txPhase := false }
    rw [txStep_acting hp, h]; rfl

theorem txPart_txStep_congr (hn : u.txBitcnt.toNat ≤ 8) (h : txPart s = txPart u) :
    txPart (txStep s) = txPart (txStep u) := by
  obtain ⟨hstate, hphase, htxd, hshift, hcount, htxf⟩ := txPart_eq_iff.mp h
  cases hp : u.txPhase with
  | false =>
    rw [txPart_txStep_gated hp, txPart_txStep_gated (hphase.trans hp), hstate, htxd, hshift, hcount, htxf]
  | true =>
    rw [txStep_acting hp, txStep_acting (hphase.trans hp)]
    exact txPart_txAct_congr hn (txPart_eq_iff.mpr ⟨hstate, rfl, htxd, hshift, hcount, htxf⟩)

/-- The RX step leaves the transmitter's part (R176). -/
theorem txPart_rxStep (lvl : Bool) (hn : s.rxBitcnt.toNat ≤ 8) : txPart (rxStep lvl s) = txPart s := by
  obtain ⟨x, sh, n, p, cd, e, f, h⟩ := rxStep_writes lvl hn
  rw [h, txPart, txState_setRxState]
  split <;> simp [txPart, State.txState]

/-- A TICK makes of the transmitter's part what its TX step does, `TXF` then serviced (R260). -/
theorem txPart_tickHandler (hl : s.legal = true) (lvl : Bool) :
    txPart (tickHandler lvl s) = txPart (service .tx (txStep s)) := by
  have h := txPart_txStep_congr (txBitcnt_le_of_legal hl) (txPart_rxStep lvl (rxBitcnt_le_of_legal hl))
  obtain ⟨hstate, hphase, htxd, hshift, hcount, htxf⟩ := txPart_eq_iff.mp h
  exact txPart_eq_iff.mpr ⟨hstate, hphase, htxd, hshift, hcount, congrArg serviceFifo htxf⟩

/-- With `TXF` clean the service does nothing (R138). -/
theorem txPart_tickHandler_clean (hl : s.legal = true) (hclean : s.txf.dirty = false) (lvl : Bool) :
    txPart (tickHandler lvl s) = txPart (txStep s) := by
  have hdirty : (txStep s).txf.dirty = false := by
    rw [txStep_txf (txBitcnt_le_of_legal hl)]
    split <;> simp [hclean]
  exact (txPart_tickHandler hl lvl).trans (txPart_eq_iff.mpr ⟨rfl, rfl, rfl, rfl, rfl, serviceFifo_clean hdirty⟩)

theorem exec_tick_tx (hcan : canTick s) (hclean : s.txf.dirty = false) (lvl : Bool) :
    ∃ t, exec (.tick lvl) s = .next t ∧ txPart t = txPart (txStep s) := by
  have ht := exec_tick hcan lvl
  obtain ⟨-, -, hlegal⟩ := hcan
  exact ⟨_, ht, txPart_tickHandler_clean hlegal hclean lvl⟩

/-! The line (R37, R197). -/

/-- The retry does not write the line (R196). -/
theorem txd_txAct_bufferLocked (hs : s.txState = .bufferLocked) : (txAct s).txd = s.txd := by
  obtain ⟨x, f, h⟩ := txCompact_writes .bufferLocked s
  rw [txAct_bufferLocked hs, h]; rfl

/-- A TICK that drives the line is an acting one outside `BUFFER_LOCKED` (R196, R197). -/
theorem acting_of_txd_tickHandler (hl : s.legal = true) (h : (tickHandler lvl s).txd ≠ s.txd) :
    s.txPhase = true ∧ s.txState ≠ .bufferLocked := by
  obtain ⟨-, -, htxd, -⟩ := txPart_eq_iff.mp (txPart_tickHandler hl lvl)
  have hstep : (txStep s).txd ≠ s.txd := fun e => h (htxd.trans e)
  cases hp : s.txPhase with
  | false => exact absurd (by rw [txStep_gated hp]) hstep
  | true =>
    refine ⟨rfl, fun hs => hstep ?_⟩
    rw [txStep_acting hp]
    exact txd_txAct_bufferLocked hs

theorem edgeHandler_txd (c : BitVec 16) (s : State) : (edgeHandler c s).txd = s.txd := by
  by_cases hs : s.rxState = .idle
  · rw [edgeHandler_idle c hs]; rfl
  · rw [edgeHandler_busy c hs]

/-! The bit count while a data bit is still to come (R35). -/

theorem txBitcnt_lt_of_sentStartBit (hl : s.legal = true) (hs : s.txState = .sentStartBit) :
    s.txBitcnt.toNat < 8 := by
  simp only [State.legal, Bool.and_eq_true, decide_eq_true_eq] at hl
  tauto

theorem txBitcnt_lt_of_not_txAttempts (hl : s.legal = true) (hp : s.txPhase = true) (hs : s.txState = .sendingData)
    (h : txAttempts s = false) : s.txBitcnt.toNat < 8 := by
  have hle := txBitcnt_le_of_legal hl
  have hne : s.txBitcnt.toNat ≠ 8 := by simpa [txAttempts, txActs, hs, hp] using h
  omega

/-! A frame in its course (R198, R199). -/

/-- Bit period `k` of the frame of the front byte of `o.txf`, begun and not yet at its stop bit, the phase toggle at
`p` (R199). -/
structure InPeriod (o : State) (k : Nat) (p : Bool) (s : State) : Prop where
  running : Running s
  txf : s.txf = o.txf
  state : s.txState = if k = 0 then .sentStartBit else .sendingData
  count : s.txBitcnt.toNat = k
  phase : s.txPhase = p

variable {k : Nat} {p : Bool}

theorem InPeriod.busy (h : InPeriod o k p s) : s.txState ≠ .idle := by
  rw [h.state]; split <;> simp

/-- The line is the period's bit of the front byte (R198). -/
theorem InPeriod.txd (h : InPeriod o k p s) : s.txd = frameBit (o.txf.data.read 0) k := by
  have hfront := h.running.tx.front h.busy
  by_cases hk : k = 0
  · rw [h.running.tx.low (by rw [h.state, if_pos hk]), hk]; rfl
  · rw [h.running.tx.data (by rw [h.state, if_neg hk]), hfront, h.txf, h.count]

/-- The acting TICK that finds a byte begins its frame (R192). -/
theorem inPeriod_of_idle (h : Running s) (hidle : s.txState = .idle) (hp : s.txPhase = true)
    (hbyte : 1 ≤ s.txf.top.toNat) (lvl : Bool) : InPeriod s 0 false (tickHandler lvl s) := by
  have htick := txPart_tickHandler_clean h.legal h.txDirty lvl
  rw [txStep_acting hp] at htick
  obtain ⟨hstate, hphase, -, -, hcount, htxf⟩ :=
    txPart_eq_iff.mp (htick.trans (txPart_txAct_idle_pending hidle hbyte))
  exact ⟨h.tickHandler lvl, htxf, hstate, by rw [hcount]; rfl, hphase⟩

/-- The non-acting TICK of a period (R191). -/
theorem InPeriod.gated (h : InPeriod o k false s) (lvl : Bool) : InPeriod o k true (tickHandler lvl s) := by
  have htick := (txPart_tickHandler_clean h.running.legal h.running.txDirty lvl).trans (txPart_txStep_gated h.phase)
  obtain ⟨hstate, hphase, -, -, hcount, htxf⟩ := txPart_eq_iff.mp htick
  exact ⟨h.running.tickHandler lvl, htxf.trans h.txf, hstate.trans h.state, by rw [hcount, h.count], hphase⟩

/-- The acting TICK that drives the next data bit (R193, R194). -/
theorem InPeriod.next_bit (h : InPeriod o k true s) (hk : k < 8) (lvl : Bool) :
    InPeriod o (k + 1) false (tickHandler lvl s) := by
  have hn : s.txBitcnt.toNat < 8 := h.count.trans_lt hk
  obtain ⟨d, hstep⟩ : ∃ d, txPart (txStep s) = (.sendingData, false, d, s.txShift, s.txBitcnt + 1, s.txf) := by
    rw [txStep_acting h.phase]
    by_cases hk0 : k = 0
    · exact ⟨_, txPart_txAct_sentStartBit (h.state.trans (if_pos hk0))⟩
    · exact ⟨_, txPart_txAct_sendingData (h.state.trans (if_neg hk0)) hn⟩
  have htick := (txPart_tickHandler_clean h.running.legal h.running.txDirty lvl).trans hstep
  obtain ⟨hstate, hphase, -, -, hcount, htxf⟩ := txPart_eq_iff.mp htick
  exact ⟨h.running.tickHandler lvl, htxf.trans h.txf, hstate, by rw [hcount, toNat_bitcnt_succ hn, h.count], hphase⟩

/-- The acting TICK of the stop bit, the lock free: the line is high, the engine idle and the front gone (R195). -/
theorem InPeriod.stops (h : InPeriod o 8 true s) (hfree : o.txf.lock = false) (lvl : Bool) :
    (tickHandler lvl s).txd = true ∧ (tickHandler lvl s).txState = .idle ∧
      (tickHandler lvl s).txf = compactFront o.txf := by
  have hat : atCompaction s = true := by simp [atCompaction, h.state, h.count]
  have htick := txPart_tickHandler_clean h.running.legal h.running.txDirty lvl
  rw [txStep_acting h.phase, txPart_txAct_atCompaction (s := { s with txPhase := false }) hat, h.txf, hfree] at htick
  obtain ⟨hstate, -, -, -, -, htxf⟩ := txPart_eq_iff.mp htick
  exact ⟨(h.running.tickHandler lvl).tx.high (.inl hstate), hstate, htxf⟩

/-- A list of two more TICKs, the last two taken off. -/
theorem exists_append_pair {n : Nat} {levels : List Bool} (h : levels.length = n + 2) :
    ∃ l x y, levels = l ++ [x, y] ∧ l.length = n := by
  obtain ⟨x, y, hxy⟩ := List.length_eq_two.mp (show (levels.drop n).length = 2 by simp [h])
  exact ⟨levels.take n, x, y, by rw [← hxy, List.take_append_drop], by simp [h]⟩

/-- After `2 * k + 1` TICKs the frame is in period `k`, up to the last data bit (R199). -/
theorem inPeriod_afterTicks (h : Running s) (hidle : s.txState = .idle) (hp : s.txPhase = true)
    (hbyte : 1 ≤ s.txf.top.toNat) (k : Nat) (hk : k ≤ 8) (levels : List Bool) (hlen : levels.length = 2 * k + 1) :
    InPeriod s k false (afterTicks levels s) := by
  induction k generalizing levels with
  | zero =>
    obtain ⟨lvl, rfl⟩ := List.length_eq_one_iff.mp hlen
    exact inPeriod_of_idle h hidle hp hbyte lvl
  | succ k ih =>
    obtain ⟨l, x, y, rfl, hl⟩ := exists_append_pair hlen
    rw [afterTicks_append]
    exact ((ih (by omega) l hl).gated x).next_bit (by omega) y

/-- A byte at the front of the valid bytes is in slot 0. -/
theorem front_of_contents {f : Fifo} {b : Byte} {rest : List Byte} (h : contents f = b :: rest) :
    1 ≤ f.top.toNat ∧ f.data.read 0 = b := by
  cases hn : f.top.toNat with
  | zero => simp [contents, hn] at h
  | succ n =>
    rw [contents, hn, List.range_succ_eq_map, List.map_cons] at h
    exact ⟨by omega, (List.cons.inj h).1⟩

/-! The obligations. -/

/-- Settles O60: after the first TICK the start bit is out, each two more drive the next bit, and the last two the stop
bit, whose compaction finds the lock free. -/
theorem frameTransmitted : Obligations.FrameTransmitted := by
  intro s b rest hinv hs hf hidle hp hfree hbytes k levels hk hlen
  have hrun := running_of_inv hinv hs
  obtain ⟨hbyte, hfront⟩ := front_of_contents hbytes
  refine ⟨_, runEvents_ticks levels hrun hf, ?_⟩
  obtain hk | rfl := Nat.lt_or_eq_of_le hk
  · have h := inPeriod_afterTicks hrun hidle hp hbyte k (by omega) levels hlen
    exact ⟨by rw [h.txd, hfront], fun _ => ⟨by rw [h.txf, hbytes], h.busy⟩, fun h9 => by omega⟩
  · obtain ⟨l, x, y, rfl, hl⟩ := exists_append_pair hlen
    have h := inPeriod_afterTicks hrun hidle hp hbyte 8 le_rfl l hl
    obtain ⟨htxd, hstate, htxf⟩ := (h.gated x).stops hfree y
    rw [afterTicks_append]
    refine ⟨htxd, fun h9 => by omega, fun _ => ⟨?_, hstate⟩⟩
    show contents (tickHandler y (tickHandler x (afterTicks l s))).txf = rest
    rw [htxf, contents_compactFront hinv.txMem, hbytes, List.tail_cons]

/-- Settles O47: the TX step's outcome in each case, no compaction attempted. -/
theorem txGateStartAndDataBits : Obligations.TxGateStartAndDataBits := by
  intro s lvl hcan hclean hno
  obtain ⟨t, ht, htick⟩ := exec_tick_tx hcan hclean lvl
  obtain ⟨-, -, hlegal⟩ := hcan
  obtain ⟨-, hphase, -, -, -, htxf⟩ := txPart_eq_iff.mp htick
  have hkept : (txStep s).txf = s.txf := by
    simp [txStep_txf (txBitcnt_le_of_legal hlegal), txRemoves, hno]
  have hact (hp : s.txPhase = true) : txPart t = txPart (txAct { s with txPhase := false }) := by
    rw [htick, txStep_acting hp]
  refine ⟨t, ht, hphase.trans (txStep_txPhase s), htxf.trans hkept, fun hp => ?_, fun hp hs htop => ?_,
    fun hp hs htop => ?_, fun hp hs => ?_, fun hp hs => ?_⟩
  · obtain ⟨hstate, -, htxd, hshift, hcount, -⟩ := txPart_eq_iff.mp (htick.trans (txPart_txStep_gated hp))
    exact ⟨hstate, hshift, hcount, htxd⟩
  · have hempty : ¬ 1 ≤ s.txf.top.toNat := by bv_omega
    obtain ⟨hstate, -, htxd, hshift, hcount, -⟩ :=
      txPart_eq_iff.mp ((hact hp).trans (txPart_txAct_idle_empty hs hempty))
    exact ⟨hstate, htxd, hshift, hcount⟩
  · have hpending : 1 ≤ s.txf.top.toNat := by bv_omega
    obtain ⟨hstate, -, htxd, hshift, hcount, -⟩ :=
      txPart_eq_iff.mp ((hact hp).trans (txPart_txAct_idle_pending hs hpending))
    exact ⟨hstate, htxd, hshift, hcount⟩
  · have hn := txBitcnt_lt_of_sentStartBit hlegal hs
    obtain ⟨hstate, -, htxd, hshift, hcount, -⟩ :=
      txPart_eq_iff.mp ((hact hp).trans (txPart_txAct_sentStartBit hs))
    exact ⟨hstate, htxd, hshift, by rw [hcount, toNat_bitcnt_succ hn]⟩
  · have hn := txBitcnt_lt_of_not_txAttempts hlegal hp hs hno
    obtain ⟨hstate, -, htxd, hshift, hcount, -⟩ :=
      txPart_eq_iff.mp ((hact hp).trans (txPart_txAct_sendingData hs hn))
    exact ⟨hstate, htxd, hshift, by rw [hcount, toNat_bitcnt_succ hn]⟩

/-- Settles O48: either attempt is the compaction, and the lock decides how it ends. -/
theorem txStopBitAndRetry : Obligations.TxStopBitAndRetry := by
  intro s lvl hcan hclean hattempt
  obtain ⟨t, ht, htick⟩ := exec_tick_tx hcan hclean lvl
  obtain ⟨hp, hat⟩ := Bool.and_eq_true_iff.mp hattempt
  rw [txStep_acting hp] at htick
  obtain ⟨hstate, hphase, htxd, hshift, hcount, htxf⟩ :=
    txPart_eq_iff.mp (htick.trans (txPart_txAct_atCompaction hat))
  refine ⟨t, ht, hphase, hshift, hcount, htxd, fun hk => ?_, fun hk => ?_⟩ <;> rw [hstate, htxf, hk]
  · exact ⟨rfl, rfl⟩
  · exact ⟨rfl, rfl⟩

/-- Settles O54: of the other operations INITIALISE alone writes the line. -/
theorem lineChangesOnlyOnActingTicks : Obligations.LineChangesOnlyOnActingTicks := by
  intro i s t h hline
  cases exec_effect h with
  | initDone => exact .inl ⟨_, rfl⟩
  | tick _ hl => exact .inr ⟨_, rfl, acting_of_txd_tickHandler hl hline⟩
  | @edgeTaken c => exact absurd (edgeHandler_txd c s) hline
  | @edgeFire c => exact absurd (edgeHandler_txd c { s with edgePend := false }) hline
  | _ => exact absurd (by simp) hline

end Sys2Proof.Proofs
end

section
/-! PROOFS. The commands of one micro-step: what each answers when it is taken (44_facade.md R220 to R224, R229 to
R233). -/

namespace Sys2Proof.Proofs

open Sys2Proof.Machine Sys2Proof.Safety Sys2Proof.Laws

variable {s t : State} {i : Instr} {first l : FgStep}
  {body : FgStep → State → Host.Outcome State Fault Refusal}

/-! The course of a command. -/

/-- A command the foreground can take runs its first micro-step. -/
theorem foregroundStep_taken (h : canTake i s) : foregroundStep i first body s = body first s := by
  obtain ⟨hf, he, ho, hw, hn⟩ := h
  exact foregroundStep_first hf he ho hw hn

theorem fgOp_of_canTake (h : canTake i s) : s.fgOp = none := h.2.2.1

/-- A command in flight runs the micro-step it is at. -/
theorem foregroundStep_at (h : inFlight i l s) : foregroundStep i first body s = body l s := by
  obtain ⟨hf, he, ho, rfl⟩ := h
  exact foregroundStep_inFlight hf he ho

/-- Taken or gone on with, a command at its first micro-step runs it. -/
theorem foregroundStep_begun (h : canTake i s ∨ inFlight i first s) : foregroundStep i first body s = body first s :=
  h.elim foregroundStep_taken foregroundStep_at

/-- A command that is not legal for the build is faulted when it is taken (R220, R290). -/
theorem exec_command_illFormed (hf : s.fault = none) (he : s.edgeFireReady = false) (ho : s.fgOp = none)
    (hi : i.isCommand = true) (hw : i.wellFormed s.cfg = false) :
    exec i s = .next { s with fault := some .illegalCommand } := by
  obtain ⟨first, body, h⟩ := exec_command_eq hi
  simp [h, foregroundStep, hf, he, ho, hw, raiseFault_of_none]

/-- A command that needs the link is one of the six that are legal for every build (R83, R221). -/
theorem wellFormed_of_needsLink (hi : needsLink i = true) (cfg : Config) :
    i.isCommand = true ∧ i.wellFormed cfg = true := by
  cases i with
  | nop | initialise | readStatus | tick | edge | edgeFire => cases hi
  | _ => exact ⟨rfl, rfl⟩

/-- Before INITIALISE a command that needs the link is faulted when it is taken (R221, R291). -/
theorem exec_command_notinit (hf : s.fault = none) (he : s.edgeFireReady = false) (ho : s.fgOp = none)
    (hn : s.notinit = true) (hi : needsLink i = true) :
    exec i s = .next { s with fault := some .notInitialised } := by
  obtain ⟨hc, hw⟩ := wellFormed_of_needsLink hi s.cfg
  obtain ⟨first, body, h⟩ := exec_command_eq hc
  simp [h, foregroundStep, hf, he, ho, hw, hi, hn, raiseFault_of_none]

/-- A result delivered by an idle foreground is the only change (R86). -/
theorem deliver_idle (ho : s.fgOp = none) (v : BitVec 16) :
    deliver v s = { s with results := s.results ++ [resultWord v] } := by
  rw [deliver, ho]

/-! NOP, READ_STATUS, CLEAR_OVERFLOW and the receive enables (R229 to R233). -/

theorem exec_nop (h : canTake .nop s) : exec .nop s = .next { s with results := s.results ++ [0] } := by
  simp only [exec, execNop, foregroundStep_taken h, deliver_idle (fgOp_of_canTake h)]
  rfl

theorem exec_readStatus (h : canTake .readStatus s) : exec .readStatus s = .next { s with
    fgStep := .rs1, results := s.results ++ [resultWord (byteValue (readStatusWord s.status))] } := by
  simp only [exec, execReadStatus, foregroundStep_taken h, deliverFrom, deliver, fgOp_of_canTake h]

theorem exec_clearOverflow (h : canTake .clearOverflow s) : exec .clearOverflow s = .next { s with
    status := clearRxovf s.status, fgStep := .co1, results := s.results ++ [0] } := by
  simp only [exec, execClearOverflow, foregroundStep_taken h, deliverFrom, deliver, fgOp_of_canTake h]
  rfl

theorem exec_enableReceive (h : canTake .enableReceive s) : exec .enableReceive s = .next { s with
    edgeIe := true, fgStep := .er1, results := s.results ++ [0] } := by
  simp only [exec, execEnableReceive, foregroundStep_taken h, deliverFrom, deliver, fgOp_of_canTake h]
  rfl

theorem exec_disableReceive (h : canTake .disableReceive s) : exec .disableReceive s = .next { s with
    edgeIe := false, fgStep := .dr1, results := s.results ++ [0] } := by
  simp only [exec, execDisableReceive, foregroundStep_taken h, deliverFrom, deliver, fgOp_of_canTake h]
  rfl

/-- The fields of the word READ_STATUS answers (R23, R28). -/
theorem readStatus_fields (st : BitVec 8) :
    let w := resultWord (byteValue (readStatusWord st))
    w.extractLsb' 8 24 = 0 ∧ w.extractLsb' 5 2 = 0 ∧ RxState.ofCode (w.extractLsb' 0 2) = rxsOf st ∧
      TxState.ofCode (w.extractLsb' 2 2) = txsOf st ∧ w.getLsbD 4 = rxovfOf st ∧ w.getLsbD 7 = notinitOf st := by
  revert st; decide

/-- The clearing of `RXOVF` leaves every other bit (R29, R232). -/
theorem getLsbD_clearRxovf (st : BitVec 8) {k : Nat} (hk : k ≠ 4) : (clearRxovf st).getLsbD k = st.getLsbD k := by
  by_cases hk8 : k < 8
  · have hmask : (0xEF#8).getLsbD k = true := (by decide : ∀ k < 8, k ≠ 4 → (0xEF#8).getLsbD k = true) k hk8 hk
    simp [clearRxovf, hmask]
  · rw [BitVec.getLsbD_of_ge _ _ (not_lt.mp hk8), BitVec.getLsbD_of_ge _ _ (not_lt.mp hk8)]

/-! INITIALISE (R222 to R224). -/

variable {idx : BitVec 3}

theorem exec_initialise (h : canTake (.initialise idx) s) : exec (.initialise idx) s = initialiseI1 idx s := by
  simp only [exec, execInitialise, foregroundStep_taken h]

theorem initialiseI1_running (hr : s.tmrRun = true) : initialiseI1 idx s = .next (deliver 1 s) := if_pos hr

theorem initialiseI1_interruptible (hr : s.tmrRun = false) (hg : s.gie = true) :
    initialiseI1 idx s = .next (raiseFault .initInterruptible s) := by
  simp [initialiseI1, hr, hg]

theorem initialiseI1_noStorage (hr : s.tmrRun = false) (hg : s.gie = false) (hs : s.storageOk = false) :
    initialiseI1 idx s = .next (deliver 2 s) := by
  simp [initialiseI1, hr, hg, hs]

theorem initialiseI1_done (hr : s.tmrRun = false) (hg : s.gie = false) (hs : s.storageOk = true) {ts : TimerSetting}
    (hts : timerSetting s.cfg idx.toNat = some ts) :
    initialiseI1 idx s = .next (deliverFrom .i1 0 (initialiseEffects idx ts s)) := by
  simp [initialiseI1, hr, hg, hs, hts]

/-- The one fault I1 can raise is `F_INIT_INTERRUPTIBLE` (R293). -/
theorem initialiseI1_fault (hf : s.fault = none) (h : initialiseI1 idx s = .next t) :
    t.fault = none ∨ t.fault = some .initInterruptible := by
  unfold initialiseI1 at h
  split at h
  · cases h; exact .inl hf
  · split at h
    · cases h; exact .inr (raiseFault_fault _ _ hf)
    · split at h
      · cases h; exact .inl hf
      · split at h <;> cases h
        exact .inl hf

/-- A valid build has a timer setting for every rate it enables (R115, R117). -/
theorem exists_timerSetting (hv : s.cfg.valid = true) (h : canTake (.initialise idx) s) :
    ∃ ts, timerSetting s.cfg idx.toNat = some ts := by
  obtain ⟨-, -, -, hw, -⟩ := h
  have ha := valid_threshAdmitted hv (i := idx.toNat) (by simpa [Instr.wellFormed, Config.rateEnabled] using hw)
  cases hts : timerSetting s.cfg idx.toNat with
  | none => simp [threshAdmitted, hts] at ha
  | some ts => exact ⟨ts, rfl⟩

/-- A state of the invariant never finds INITIALISE interruptible: the timer runs once `GIE` is on (R285, R293). -/
theorem gie_eq_false_of_stopped (h : Inv s) (hr : s.tmrRun = false) : s.gie = false := by
  obtain hu | hs := h.phase
  · exact hu.gie
  · simp [hs.tmrRun] at hr

/-! The obligations. -/

/-- Settles O10: the taking faults the six commands, and the other three have their own outcomes. -/
theorem linkCommandsBeforeSetupFault : Obligations.LinkCommandsBeforeSetupFault := by
  intro s hf he ho hn
  refine ⟨fun i hi => exec_command_notinit hf he ho hn ?_, fun i t hi h => ?_⟩
  · obtain ⟨b, rfl⟩ | rfl | rfl | rfl | rfl | rfl := hi <;> rfl
  · obtain rfl | rfl | ⟨idx, rfl⟩ := hi
    · rw [exec_nop ⟨hf, he, ho, rfl, rfl⟩] at h
      cases h
      simp [hf]
    · rw [exec_readStatus ⟨hf, he, ho, rfl, rfl⟩] at h
      cases h
      simp [hf]
    · cases hw : (Instr.initialise idx).wellFormed s.cfg with
      | false =>
        rw [exec_command_illFormed hf he ho rfl hw] at h
        cases h
        simp
      | true =>
        rw [exec_initialise ⟨hf, he, ho, hw, rfl⟩] at h
        obtain hx | hx := initialiseI1_fault hf h <;> simp [hx]

/-- Settles O19: the setting of an enabled rate fits the timer's registers, and the effects are those of R224. -/
theorem initialiseSucceeds : Obligations.InitialiseSucceeds := by
  intro s idx h hv hr hg hs
  obtain ⟨ts, hts⟩ := exists_timerSetting hv h
  obtain ⟨hps, hreload, hthresh⟩ := timerSetting_fits hv hts
  refine ⟨ts, _, hts, (exec_initialise h).trans (initialiseI1_done hr hg hs hts), ?_⟩
  obtain ⟨hf, -⟩ := h
  exact ⟨rfl, rfl, rfl, rfl, rfl, rfl, rfl, rfl, rfl, rfl, rfl, rfl, rfl, rfl, rfl, rfl, Nat.mod_eq_of_lt hps,
    Nat.mod_eq_of_lt hreload, Nat.mod_eq_of_lt hthresh, rfl, rfl, rfl, rfl, rfl, hf, rfl, rfl, rfl, rfl, rfl, rfl, rfl⟩

/-- Settles O20: I1 tests the timer, then `GIE`, then the storage, and a later draw can succeed. -/
theorem initialiseFailureChangesNothing : Obligations.InitialiseFailureChangesNothing := by
  intro s idx h
  have ho := fgOp_of_canTake h
  have hf : s.fault = none := h.1
  refine ⟨fun hr => ?_, fun hr hg => ?_, fun hr hg hs => ⟨?_, fun hv => ?_⟩, fun hinv => ?_⟩
  · rw [exec_initialise h, initialiseI1_running hr, deliver_idle ho]; rfl
  · rw [exec_initialise h, initialiseI1_interruptible hr hg, raiseFault_of_none _ _ hf]
  · rw [exec_initialise h, initialiseI1_noStorage hr hg hs, deliver_idle ho]; rfl
  · obtain ⟨ts, hts⟩ := exists_timerSetting hv h
    let u : State := { s with results := s.results ++ [2], storageOk := true }
    exact ⟨_, (exec_initialise (s := u) h).trans (initialiseI1_done (s := u) hr hg rfl hts),
      List.append_assoc s.results [2] [0], (by decide : notinitOf 0x00 = false)⟩
  · rw [exec_initialise h]
    cases hr : s.tmrRun with
    | true => exact ⟨_, initialiseI1_running hr, hf⟩
    | false =>
      have hg := gie_eq_false_of_stopped hinv hr
      cases hs : s.storageOk with
      | false => exact ⟨_, initialiseI1_noStorage hr hg hs, hf⟩
      | true =>
        obtain ⟨ts, hts⟩ := exists_timerSetting hinv.build h
        exact ⟨_, initialiseI1_done hr hg hs hts, hf⟩

/-- Settles O21: NOP can be taken in every phase. -/
theorem nopReturnsZero : Obligations.NopReturnsZero := fun _ hf he ho => exec_nop ⟨hf, he, ho, rfl, rfl⟩

/-- Settles O31: each command delivers from its one micro-step. -/
theorem receiveEnableCommands : Obligations.ReceiveEnableCommands := fun _ =>
  ⟨exec_enableReceive, exec_disableReceive⟩

/-- Settles O32: the status word's reserved bits are masked, its fields are not. -/
theorem readStatusAnswersStatus : Obligations.ReadStatusAnswersStatus := fun s hf he ho =>
  ⟨_, exec_readStatus ⟨hf, he, ho, rfl, rfl⟩, readStatus_fields s.status⟩

/-- Settles O33: the mask of the clearing is every bit but bit 4. -/
theorem clearOverflowClearsOneBit : Obligations.ClearOverflowClearsOneBit := fun s h =>
  ⟨clearRxovf s.status, exec_clearOverflow h, rxovfOf_clearRxovf s.status, fun _ => getLsbD_clearRxovf s.status⟩

end Sys2Proof.Proofs
end

section
/-! PROOFS. The commands of several micro-steps: PUT_CHAR, DATA_PENDING and GET_CHAR, one equation per micro-step, and
their courses with no event between the micro-steps (44_facade.md R225, R227, R228). -/

namespace Sys2Proof.Proofs

open Sys2Proof.Machine Sys2Proof.Safety Sys2Proof.Laws

variable {s t : State} {i j : Instr} {l : FgStep} {b : Byte} {n : Nat}

theorem fgOp_of_inFlight (h : inFlight i l s) : s.fgOp = some i := h.2.2.1

theorem resultWord_byteValue (v : BitVec 8) : resultWord (byteValue v) = BitVec.ofNat 32 v.toNat := by
  revert v; decide

theorem resultWord_flagValue (a : Bool) : resultWord (flagValue a) = if a then 1 else 0 := by
  cases a <;> rfl

/-! PUT_CHAR (R225). -/

theorem exec_putChar_pc1 (h : canTake (.putChar b) s ∨ inFlight (.putChar b) .pc1 s) :
    exec (.putChar b) s = .next { s with
      fgOp := some (.putChar b), fgStep := if s.txf.lock then .pc1 else .pc2 } := by
  simp only [exec, execPutChar, foregroundStep_begun h, putCharPc1]
  split <;> rfl

theorem exec_putChar_pc1_free (h : canTake (.putChar b) s ∨ inFlight (.putChar b) .pc1 s)
    (hfree : s.txf.lock = false) :
    exec (.putChar b) s = .next { s with fgOp := some (.putChar b), fgStep := .pc2 } := by
  rw [exec_putChar_pc1 h, hfree]; rfl

theorem exec_putChar_pc2_free (h : inFlight (.putChar b) .pc2 s) (hfree : s.txf.lock = false) :
    exec (.putChar b) s = .next { s with txf := { s.txf with lock := true }, fgStep := .pc3 } := by
  simp [exec, execPutChar, foregroundStep_at h, putCharPc2, testAndSet_tx, hfree, goTo, fgOp_of_inFlight h]

theorem exec_putChar_pc2_held (h : inFlight (.putChar b) .pc2 s) (hheld : s.txf.lock = true) :
    exec (.putChar b) s = .next { s with fgStep := .pc1 } := by
  simp [exec, execPutChar, foregroundStep_at h, putCharPc2, testAndSet_tx, hheld, goTo, fgOp_of_inFlight h]

theorem exec_putChar_pc3_room (h : inFlight (.putChar b) .pc3 s) (hroom : s.txf.top.toNat < s.cfg.capTx) :
    exec (.putChar b) s = .next { s with fgT := s.txf.top, fgStep := .pc4 } := by
  simp only [exec, execPutChar, foregroundStep_at h, putCharPc3, hroom.not_ge, if_false, goTo, fgOp_of_inFlight h]

theorem exec_putChar_pc3_full (h : inFlight (.putChar b) .pc3 s) (hfull : s.cfg.capTx ≤ s.txf.top.toNat) :
    exec (.putChar b) s = .next { s with fgT := s.txf.top, fgAcc := false, fgStep := .pc6 } := by
  simp only [exec, execPutChar, foregroundStep_at h, putCharPc3, hfull, if_true, goTo, fgOp_of_inFlight h]

theorem exec_putChar_pc4 (h : inFlight (.putChar b) .pc4 s) (hin : s.fgT.toNat < s.cfg.capTx) :
    exec (.putChar b) s = .next { s with
      txf := { s.txf with data := s.txf.data.write s.fgT.toNat b }, fgStep := .pc5 } := by
  have hslot : s.slotExists .tx s.fgT.toNat = true := decide_eq_true hin
  simp only [exec, execPutChar, foregroundStep_at h, hslot, if_true, putCharPc4, fifoWrite, goTo, fgOp_of_inFlight h]

theorem exec_putChar_pc5 (h : inFlight (.putChar b) .pc5 s) (hin : s.fgT.toNat < s.cfg.capTx) :
    exec (.putChar b) s = .next { s with
      txf := { s.txf with top := s.fgT + 1 }, fgAcc := true, fgStep := .pc6 } := by
  have hslot : s.slotExists .tx s.fgT.toNat = true := decide_eq_true hin
  simp only [exec, execPutChar, foregroundStep_at h, hslot, if_true, putCharPc5, goTo, fgOp_of_inFlight h]

theorem exec_putChar_pc6 (h : inFlight (.putChar b) .pc6 s) :
    exec (.putChar b) s = .next { s with
      txf := { s.txf with lock := false }, fgOp := none, results := s.results ++ [if s.fgAcc then 1 else 0] } := by
  simp only [exec, execPutChar, foregroundStep_at h, putCharPc6, deliver, resultWord_flagValue, unlock]

/-! DATA_PENDING (R227). -/

theorem exec_dataPending_dp1_empty (h : canTake .dataPending s ∨ inFlight .dataPending .dp1 s) (ht : s.rxf.top = 0) :
    exec .dataPending s = .next { s with
      fgT := 0, fgOp := none, fgStep := .dp1, results := s.results ++ [0] } := by
  simp only [exec, execDataPending, foregroundStep_begun h, dataPendingDp1, ht, if_true]
  rfl

theorem exec_dataPending_dp1_some (h : canTake .dataPending s ∨ inFlight .dataPending .dp1 s) (ht : s.rxf.top ≠ 0) :
    exec .dataPending s = .next { s with fgT := s.rxf.top, fgOp := some .dataPending, fgStep := .dp2 } := by
  simp only [exec, execDataPending, foregroundStep_begun h, dataPendingDp1, ht, if_false, goTo]

theorem exec_dataPending_dp2 (h : inFlight .dataPending .dp2 s) :
    exec .dataPending s = .next { s with fgStep := if s.rxf.dirty then .dp2 else .dp3 } := by
  simp only [exec, execDataPending, foregroundStep_at h, dataPendingDp2, goTo, fgOp_of_inFlight h]
  split <;> rfl

theorem exec_dataPending_dp2_free (h : inFlight .dataPending .dp2 s) (hclean : s.rxf.dirty = false) :
    exec .dataPending s = .next { s with fgStep := .dp3 } := by
  rw [exec_dataPending_dp2 h, hclean]; rfl

theorem exec_dataPending_dp3 (h : inFlight .dataPending .dp3 s) :
    exec .dataPending s = .next { s with
      fgT := s.rxf.top, fgOp := none, results := s.results ++ [BitVec.ofNat 32 s.rxf.top.toNat] } := by
  simp only [exec, execDataPending, foregroundStep_at h, dataPendingDp3, deliver, resultWord_byteValue]

/-! GET_CHAR (R228). -/

theorem exec_getChar_gc1 (h : canTake .getChar s ∨ inFlight .getChar .gc1 s) :
    exec .getChar s = .next { s with
      fgOp := some .getChar, fgStep := if s.rxf.dirty then .gc1 else .gc2 } := by
  simp only [exec, execGetChar, foregroundStep_begun h, getCharGc1]
  split <;> rfl

theorem exec_getChar_gc1_free (h : canTake .getChar s ∨ inFlight .getChar .gc1 s) (hclean : s.rxf.dirty = false) :
    exec .getChar s = .next { s with fgOp := some .getChar, fgStep := .gc2 } := by
  rw [exec_getChar_gc1 h, hclean]; rfl

theorem exec_getChar_gc2_empty (h : inFlight .getChar .gc2 s) (hcap : 1 ≤ s.cfg.capRx) (ht : s.rxf.top = 0) :
    exec .getChar s = .next { s with fault := some .getcharEmpty } := by
  have hslot : s.slotExists .rx 0 = true := decide_eq_true hcap
  simp only [exec, execGetChar, foregroundStep_at h, hslot, if_true, getCharGc2, ht, raiseFault_of_none _ _ h.1]

theorem exec_getChar_gc2_some (h : inFlight .getChar .gc2 s) (hcap : 1 ≤ s.cfg.capRx) (ht : s.rxf.top ≠ 0) :
    exec .getChar s = .next { s with fgV := s.rxf.data.read 0, fgStep := .gc3 } := by
  have hslot : s.slotExists .rx 0 = true := decide_eq_true hcap
  simp only [exec, execGetChar, foregroundStep_at h, hslot, if_true, getCharGc2, ht, if_false, fifoRead, goTo,
    fgOp_of_inFlight h]

theorem exec_getChar_gc3 (h : inFlight .getChar .gc3 s) :
    exec .getChar s = .next { s with
      rxf := { s.rxf with dirty := true }, fgOp := none
      results := s.results ++ [BitVec.ofNat 32 s.fgV.toNat] } := by
  simp only [exec, execGetChar, foregroundStep_at h, getCharGc3, deliver, resultWord_byteValue]

/-! The course of a command with no event inside it. -/

theorem runMicroSteps_goesOn (h : exec i s = .next t) (ht : t.fgOp = some j) :
    runMicroSteps i (n + 1) s = runMicroSteps i n t := by
  simp [runMicroSteps, h, ht]

theorem runMicroSteps_ends (h : exec i s = .next t) (ht : t.fgOp = none) : runMicroSteps i (n + 1) s = .next t := by
  simp [runMicroSteps, h, ht]

/-- With `TXF.LOCK` free PUT_CHAR is at PC3 after two micro-steps, the lock taken (R133, R225). -/
theorem runMicroSteps_putChar_locks (h : canTake (.putChar b) s) (hfree : s.txf.lock = false) :
    runMicroSteps (.putChar b) (n + 2) s = runMicroSteps (.putChar b) n { s with
      fgOp := some (.putChar b), fgStep := .pc3, txf := { s.txf with lock := true } } := by
  have ⟨hf, he, _⟩ := h
  rw [runMicroSteps_goesOn (exec_putChar_pc1_free (.inl h) hfree) rfl]
  exact runMicroSteps_goesOn (exec_putChar_pc2_free ⟨hf, he, rfl, rfl⟩ hfree) rfl

/-- PUT_CHAR that finds room stores the byte at the count, raises the count and answers 1 (R136, R225). -/
theorem runMicroSteps_putChar_room (h : canTake (.putChar b) s) (hfree : s.txf.lock = false)
    (hroom : s.txf.top.toNat < s.cfg.capTx) :
    runMicroSteps (.putChar b) 6 s = .next { s with
      txf := ⟨s.txf.data.write s.txf.top.toNat b, s.txf.top + 1, false, s.txf.dirty⟩
      fgStep := .pc6, fgT := s.txf.top, fgAcc := true, results := s.results ++ [1] } := by
  have ⟨hf, he, ho, _⟩ := h
  let locked : State := { s with fgOp := some (.putChar b), txf := { s.txf with lock := true } }
  let stored : State := { locked with
    fgT := s.txf.top, txf := { locked.txf with data := s.txf.data.write s.txf.top.toNat b } }
  calc runMicroSteps (.putChar b) 6 s
      = runMicroSteps (.putChar b) 4 { locked with fgStep := .pc3 } := runMicroSteps_putChar_locks h hfree
    _ = runMicroSteps (.putChar b) 3 { locked with fgT := s.txf.top, fgStep := .pc4 } :=
        runMicroSteps_goesOn (exec_putChar_pc3_room ⟨hf, he, rfl, rfl⟩ hroom) rfl
    _ = runMicroSteps (.putChar b) 2 { stored with fgStep := .pc5 } :=
        runMicroSteps_goesOn (exec_putChar_pc4 ⟨hf, he, rfl, rfl⟩ hroom) rfl
    _ = runMicroSteps (.putChar b) 1 { stored with
          txf := { stored.txf with top := s.txf.top + 1 }, fgAcc := true, fgStep := .pc6 } :=
        runMicroSteps_goesOn (exec_putChar_pc5 ⟨hf, he, rfl, rfl⟩ hroom) rfl
    _ = _ := runMicroSteps_ends (exec_putChar_pc6 ⟨hf, he, rfl, rfl⟩) rfl
    _ = _ := by rw [ho]; rfl

/-- PUT_CHAR that finds `TXF` full gives the lock back and answers 0 (R225, R287). -/
theorem runMicroSteps_putChar_full (h : canTake (.putChar b) s) (hfree : s.txf.lock = false)
    (hfull : s.cfg.capTx ≤ s.txf.top.toNat) :
    runMicroSteps (.putChar b) 4 s = .next { s with
      fgStep := .pc6, fgT := s.txf.top, fgAcc := false, results := s.results ++ [0] } := by
  have ⟨hf, he, ho, _⟩ := h
  let locked : State := { s with fgOp := some (.putChar b), txf := { s.txf with lock := true } }
  calc runMicroSteps (.putChar b) 4 s
      = runMicroSteps (.putChar b) 2 { locked with fgStep := .pc3 } := runMicroSteps_putChar_locks h hfree
    _ = runMicroSteps (.putChar b) 1 { locked with fgT := s.txf.top, fgAcc := false, fgStep := .pc6 } :=
        runMicroSteps_goesOn (exec_putChar_pc3_full ⟨hf, he, rfl, rfl⟩ hfull) rfl
    _ = .next { s with
          fgOp := none, txf := { s.txf with lock := false }
          fgStep := .pc6, fgT := s.txf.top, fgAcc := false, results := s.results ++ [0] } :=
        runMicroSteps_ends (exec_putChar_pc6 ⟨hf, he, rfl, rfl⟩) rfl
    _ = _ := by rw [ho, lock_eta hfree]

theorem length_contents (f : Fifo) : (contents f).length = f.top.toNat := by
  simp [contents]

/-! The obligations. -/

/-- Settles O22: one equation per micro-step and branch. -/
theorem putCharMicroSteps : Obligations.PutCharMicroSteps := fun _ _ =>
  ⟨exec_putChar_pc1, fun h => ⟨exec_putChar_pc2_free h, exec_putChar_pc2_held h⟩,
    fun h => ⟨exec_putChar_pc3_room h, exec_putChar_pc3_full h⟩, exec_putChar_pc4, exec_putChar_pc5, exec_putChar_pc6⟩

/-- Settles O23: the count read at PC3 decides the course. -/
theorem putCharAcceptsOrRejects : Obligations.PutCharAcceptsOrRejects := fun _ _ h hfree =>
  ⟨runMicroSteps_putChar_room h hfree, runMicroSteps_putChar_full h hfree⟩

/-- Settles O26: one equation per micro-step and branch. -/
theorem dataPendingMicroSteps : Obligations.DataPendingMicroSteps := fun _ =>
  ⟨fun h => ⟨exec_dataPending_dp1_empty h, exec_dataPending_dp1_some h⟩, exec_dataPending_dp2, exec_dataPending_dp3⟩

/-- Settles O27: an empty `RXF` is answered at DP1, another at DP3. -/
theorem dataPendingAnswersCount : Obligations.DataPendingAnswersCount := by
  intro s h hclean
  have ⟨hf, he, ho, _⟩ := h
  rw [length_contents]
  by_cases ht : s.rxf.top = 0
  · refine ⟨.dp1, ?_⟩
    rw [runMicroSteps_ends (exec_dataPending_dp1_empty (.inl h) ht) rfl, ht, ho]
    rfl
  · let counted : State := { s with fgT := s.rxf.top, fgOp := some .dataPending }
    refine ⟨.dp3, ?_⟩
    calc runMicroSteps .dataPending 3 s
        = runMicroSteps .dataPending 2 { counted with fgStep := .dp2 } :=
          runMicroSteps_goesOn (exec_dataPending_dp1_some (.inl h) ht) rfl
      _ = runMicroSteps .dataPending 1 { counted with fgStep := .dp3 } :=
          runMicroSteps_goesOn (exec_dataPending_dp2_free ⟨hf, he, rfl, rfl⟩ hclean) rfl
      _ = _ := runMicroSteps_ends (exec_dataPending_dp3 ⟨hf, he, rfl, rfl⟩) rfl
      _ = _ := by rw [ho]

/-- Settles O28: one equation per micro-step and branch. -/
theorem getCharMicroSteps : Obligations.GetCharMicroSteps := fun _ =>
  ⟨exec_getChar_gc1, fun h hcap => ⟨exec_getChar_gc2_empty h hcap, exec_getChar_gc2_some h hcap⟩, exec_getChar_gc3⟩

/-- Settles O29: GC2 reads the front, GC3 answers it. -/
theorem getCharAnswersOldest : Obligations.GetCharAnswersOldest := by
  intro s b rest h hcap hclean hc
  have ⟨hf, he, ho, _⟩ := h
  obtain ⟨htop, rfl⟩ := front_of_contents hc
  have ht : s.rxf.top ≠ 0 := by bv_omega
  let taken : State := { s with fgOp := some .getChar }
  calc runMicroSteps .getChar 3 s
      = runMicroSteps .getChar 2 { taken with fgStep := .gc2 } :=
        runMicroSteps_goesOn (exec_getChar_gc1_free (.inl h) hclean) rfl
    _ = runMicroSteps .getChar 1 { taken with fgStep := .gc3, fgV := s.rxf.data.read 0 } :=
        runMicroSteps_goesOn (exec_getChar_gc2_some ⟨hf, he, rfl, rfl⟩ hcap ht) rfl
    _ = _ := runMicroSteps_ends (exec_getChar_gc3 ⟨hf, he, rfl, rfl⟩) rfl
    _ = _ := by rw [ho]

end Sys2Proof.Proofs
end

section
/-! PROOFS. No hold lasts: who has `TXF.LOCK` when a command comes to take it, and what a TICK leaves held (41_fifo.md
R141, 44_facade.md R234). -/

namespace Sys2Proof.Proofs

open Sys2Proof.Machine Sys2Proof.Safety Sys2Proof.Laws

variable {s : State} {i : Instr} {l : FgStep}

theorem running_of_not_unstarted (h : Inv s) (hu : ¬ Unstarted s) : Running s :=
  running_of_inv h (h.phase.resolve_left hu)

theorem running_of_initialised (h : Inv s) (hn : s.notinit = false) : Running s :=
  running_of_not_unstarted h fun hu => by simp [notinit_of_unstarted hu] at hn

/-- The micro-step a command is at says whether `TXF.LOCK` is held (R54(d), R141). -/
theorem lock_of_inFlight (h : Inv s) (hl : inFlight i l s) : s.txf.lock = holdsLock i l := by
  obtain ⟨-, -, ho, rfl⟩ := hl
  have hrun := running_of_not_unstarted h fun hu => by simp [hu.fgIdle] at ho
  rw [hrun.txLock, holdsTxLock_of_some ho]

/-- A TICK gives `TXF.LOCK` back as it found it (R131, R132, R141). -/
theorem tickHandler_txf_lock (lvl : Bool) (hl : s.legal = true) : (tickHandler lvl s).txf.lock = s.txf.lock := by
  rw [tickHandler_txf lvl (rxBitcnt_le_of_legal hl) (txBitcnt_le_of_legal hl), (serviceFifo_flags _).1]
  split
  · exact compactFront_lock _
  · rfl

/-- A TICK of a running link leaves no pop outstanding, and `RXF.LOCK` free (R138, R141). -/
theorem tickHandler_lifts_rx_holds (h : Running s) (lvl : Bool) :
    (tickHandler lvl s).rxf.dirty = false ∧ (tickHandler lvl s).rxf.lock = false := by
  have hfree := (h.rxStep lvl).rxLock
  obtain ⟨hlock, hdirty⟩ := serviceFifo_flags (rxStep lvl s).rxf
  rw [tickHandler_rxf, hlock, hdirty, hfree, Bool.and_false]
  exact ⟨rfl, rfl⟩

/-! The obligation. -/

/-- Settles O57: PUT_CHAR holds `TXF.LOCK` from PC3 on alone, and a TICK finds `RXF.LOCK` free. -/
theorem holdsAreLifted : Obligations.HoldsAreLifted := by
  intro s h
  refine ⟨fun b hs => ?_, fun hn => (running_of_initialised h hn).rxLock, fun lvl t ht => ?_⟩
  · obtain ⟨hn, ho⟩ | hpc1 | hpc2 := hs
    · rw [(running_of_initialised h hn).txLock, holdsTxLock_of_none ho]
    · exact lock_of_inFlight h hpc1
    · exact lock_of_inFlight h hpc2
  · cases exec_effect ht with
    | tick hr hl =>
      have hrun := running_of_not_unstarted h fun hu => by simp [State.tickReady, hu.tickIe] at hr
      obtain ⟨hdirty, hlock⟩ := tickHandler_lifts_rx_holds hrun lvl
      exact ⟨hdirty, hlock, tickHandler_txf_lock lvl hl⟩
    | rejected _ hc => cases hc

end Sys2Proof.Proofs
end

section
/-! PROOFS. SEND: what waiting for the result of a PUT_CHAR answers, whatever events fall inside it, and what it answers
with none (30_encoding.md R91, 44_facade.md R226). -/

namespace Sys2Proof.Proofs

open Sys2Proof.Machine Sys2Proof.Safety Sys2Proof.Laws

variable {s s' t u : State} {i : Instr} {b : Byte} {rs : List Word} {w : Word} {n k fuel : Nat}

/-! A step, as the host sees it. -/

/-- What the host sees of the foreground: the command in flight, the results and the port. -/
def hostPart (s : State) : Option Instr × List Word × List HostCommand := (s.fgOp, s.results, s.cmdPort)

theorem hostPart_edgeHandler (c : BitVec 16) (s : State) : hostPart (edgeHandler c s) = hostPart s := by
  by_cases hs : s.rxState = .idle
  · rw [edgeHandler_idle c hs]; rfl
  · rw [edgeHandler_busy c hs]

/-- No event completes or takes a command (R68, R299). -/
theorem hostPart_exec_event (hi : i.isCommand = false) (h : exec i s = .next t) : hostPart t = hostPart s := by
  cases exec_effect h with
  | @tick lvl _ _ hl =>
    obtain ⟨_, _, _, _, _, _, htick⟩ := tickHandler_writes lvl s
    obtain ⟨_, _, _, _, _, _, _, hrx⟩ := rxStep_writes lvl (rxBitcnt_le_of_legal hl)
    rw [htick, hrx]
    split <;> rfl
  | @edgeTaken c => exact hostPart_edgeHandler c s
  | @edgeFire c => exact hostPart_edgeHandler c { s with edgePend := false }
  | edgeLatched | edgeLost => rfl
  | rejected _ hc => simp [hi] at hc
  | _ => cases hi

/-- An operation that answers a next state found no fault set (R284). -/
theorem fault_eq_none_of_exec (h : exec i s = .next t) : s.fault = none := by
  cases hi : i.isCommand with
  | true =>
    obtain ⟨first, body, he⟩ := exec_command_eq hi
    exact (foregroundStep_next ((he s).symm.trans h)).1
  | false =>
    obtain ⟨body, he⟩ := exec_event_eq hi
    exact (eventStep_next ((he s).symm.trans h)).1

/-- A micro-step of PUT_CHAR goes on, completes with 0 or 1, or is the taking and faults. -/
theorem putChar_outcome (h : exec (.putChar b) s = .next t) :
    t.cfg = s.cfg ∧ t.script = s.script ∧ t.cmdPort = s.cmdPort ∧
      ((t.fgOp = some (.putChar b) ∧ t.fault = none ∧ t.results = s.results) ∨
       (t.fgOp = none ∧ ∃ a : Bool, t.results = s.results ++ [if a then 1 else 0]) ∨
       (t.fgOp = none ∧ t.fault ≠ none ∧ t.results = s.results)) := by
  have hf := fault_eq_none_of_exec h
  cases exec_effect h with
  | rejected c _ ho =>
    rw [raiseFault_of_none c s hf]
    exact ⟨rfl, rfl, rfl, .inr (.inr ⟨ho, by simp, rfl⟩)⟩
  | pc6 => exact ⟨rfl, rfl, rfl, .inr (.inl ⟨rfl, s.fgAcc, by rw [deliver, resultWord_flagValue]⟩)⟩
  | _ => exact ⟨rfl, rfl, rfl, .inl ⟨rfl, hf, rfl⟩⟩

theorem foregroundTurn_or_event (s : State) :
    (∃ rest, foregroundTurn s rest) ∨ ∃ w rest, s.script = .event w :: rest := by
  cases hs : s.script with
  | nil => exact .inl ⟨[], .inl ⟨hs, rfl⟩⟩
  | cons turn rest =>
    cases turn with
    | foreground => exact .inl ⟨rest, .inr hs⟩
    | event w => exact .inr ⟨w, rest, rfl⟩

/-! Waiting for a PUT_CHAR (R226). -/

/-- The host waits for the result of PUT_CHAR `b`, `rs` delivered before it: its word is on the port, or it is in flight,
or a fault has stopped the run. -/
def AwaitsPutChar (b : Byte) (rs : List Word) (s : State) : Prop :=
  s.results = rs ∧
    (s.fault ≠ none ∨
     (s.fgOp = none ∧ ∃ c, s.cmdPort = [c] ∧ decodeCommand c.word = .ok (.putChar b)) ∨
     (s.fgOp = some (.putChar b) ∧ s.cmdPort = []))

/-- The result of a PUT_CHAR is the one after `rs`, and the foreground has nothing left to do. -/
def PutCharAnswered (rs : List Word) (a : Bool) (s : State) : Prop :=
  s.fgOp = none ∧ s.cmdPort = [] ∧ s.results = rs ++ [if a then 1 else 0]

/-- A micro-step of the PUT_CHAR awaited leaves it awaited or answered. -/
theorem awaits_or_answered (h : exec (.putChar b) s = .next t) (hr : s.results = rs) (hc : s.cmdPort = []) :
    AwaitsPutChar b rs t ∨ ∃ a, PutCharAnswered rs a t := by
  subst hr
  obtain ⟨-, -, hport, ⟨ho, -, hr⟩ | ⟨ho, a, hr⟩ | ⟨-, hf, hr⟩⟩ := putChar_outcome h
  · exact .inl ⟨hr, .inr (.inr ⟨ho, hport.trans hc⟩)⟩
  · exact .inr ⟨a, ho, hport.trans hc, hr⟩
  · exact .inl ⟨hr, .inl hf⟩

/-- A step, of either agent, leaves a PUT_CHAR awaited or answered. -/
theorem AwaitsPutChar.step (h : AwaitsPutChar b rs s) (hs : step s = .next t) :
    AwaitsPutChar b rs t ∨ ∃ a, PutCharAnswered rs a t := by
  obtain ⟨hf, hv, -⟩ := step_cases hs
  obtain ⟨rfl, hwait⟩ := h
  have hwait := hwait.resolve_left (not_not_intro hf)
  obtain ⟨rest, hturn⟩ | ⟨w, rest, hscript⟩ := foregroundTurn_or_event s
  · obtain ⟨ho, c, hc, hd⟩ | ⟨ho, hc⟩ := hwait
    · rw [step_takes hf hv hturn ho hc hd] at hs
      exact awaits_or_answered hs rfl rfl
    · rw [step_inFlight hf hv hturn ho] at hs
      exact awaits_or_answered hs rfl hc
  · cases hd : decodeEvent w with
    | error e => rw [step_event_error hf hv hscript hd] at hs; cases hs
    | ok i =>
      rw [step_event hf hv hscript hd] at hs
      have hpart := hostPart_exec_event (isCommand_of_decodeEvent hd) hs
      simp only [hostPart, Prod.mk.injEq] at hpart
      obtain ⟨ho, hr, hc⟩ := hpart
      exact .inl ⟨hr, .inr (by rwa [ho, hc])⟩

theorem awaitResult_delivered (h : s.results[n]? = some w) : awaitResult n fuel s = .next (s, some w) := by
  cases fuel <;> simp [awaitResult, h]

theorem awaitResult_step (h : s.results[n]? = none) (hs : step s = .next t) :
    awaitResult n (fuel + 1) s = awaitResult n fuel t := by
  simp [awaitResult, h, hs]

/-- A word answered is the result of the PUT_CHAR awaited. -/
theorem AwaitsPutChar.answered (h : AwaitsPutChar b rs s) (hw : awaitResult rs.length fuel s = .next (t, some w)) :
    ∃ a : Bool, PutCharAnswered rs a t ∧ w = if a then 1 else 0 := by
  induction fuel generalizing s with
  | zero => simp [awaitResult, h.1] at hw
  | succ fuel ih =>
    have hnone : s.results[rs.length]? = none := by simp [h.1]
    cases hs : Machine.step s with
    | next u =>
      rw [awaitResult_step hnone hs] at hw
      obtain hu | ⟨a, hu⟩ := h.step hs
      · exact ih hu hw
      · obtain ⟨-, -, hr⟩ := id hu
        rw [awaitResult_delivered (w := if a then 1 else 0) (by simp [hr])] at hw
        cases hw
        exact ⟨a, hu, rfl⟩
    | fault | refused => simp [awaitResult, hnone, hs] at hw

/-- An idle foreground with an empty port owes no result: the command's own is the next (R86). -/
theorem issueAndWait_idle (ho : s.fgOp = none) (hc : s.cmdPort = []) : issueAndWait fuel i s =
    awaitResult s.results.length fuel { s with cmdPort := [⟨encode i, s.storageOk⟩] } := by
  simp [issueAndWait, resultsDue, ho, hc]

/-- SEND that answers a count delivered that many results 1, and one result 0 where a byte was left over. -/
theorem results_of_send {bytes : List Byte} (ho : s.fgOp = none) (hc : s.cmdPort = [])
    (h : send fuel bytes s = (.next t, some k)) :
    k ≤ bytes.length ∧ t.fgOp = none ∧ t.cmdPort = [] ∧
      t.results = s.results ++ List.replicate k 1 ++ (if k < bytes.length then [0] else []) := by
  induction bytes generalizing s k with
  | nil => cases h; simp [ho, hc]
  | cons b rest ih =>
    obtain ⟨u, r, hu, hcount⟩ := send_cons_some h
    rw [issueAndWait_idle ho hc] at hu
    have hawait : AwaitsPutChar b s.results { s with cmdPort := [⟨encode (.putChar b), s.storageOk⟩] } :=
      ⟨rfl, .inr (.inl ⟨ho, _, rfl, decodeCommand_encode rfl⟩)⟩
    obtain ⟨a, ⟨ho', hc', hr'⟩, rfl⟩ := hawait.answered hu
    obtain ⟨hzero, rfl, rfl⟩ | ⟨hne, j, hj, rfl⟩ := hcount
    · obtain rfl : a = false := by cases a; rfl; exact absurd hzero (by decide)
      exact ⟨Nat.zero_le _, ho', hc', by simp [hr']⟩
    · obtain rfl : a = true := by cases a; exact absurd rfl hne; rfl
      obtain ⟨hle, hidle, hport, hres⟩ := ih ho' hc' hj
      exact ⟨Nat.succ_le_succ hle, hidle, hport, by simp [hres, hr', List.replicate_succ]⟩

/-! SEND with no event inside it. -/

/-- With no event to come, waiting for PUT_CHAR runs its micro-steps. -/
theorem awaitResult_of_runMicroSteps (hstep : step s' = exec (.putChar b) s) (hres : s'.results = s.results)
    (hv : s.cfg.valid = true) (hscript : s.script = []) (hrun : runMicroSteps (.putChar b) n s = .next t)
    (hw : t.results[s.results.length]? = some w) (hfuel : n ≤ fuel) :
    awaitResult s.results.length fuel s' = .next (t, some w) := by
  induction n generalizing s s' fuel with
  | zero => cases hrun; simp at hw
  | succ n ih =>
    obtain ⟨m, rfl⟩ := Nat.exists_eq_add_of_le' (Nat.one_le_of_lt hfuel)
    cases he : exec (.putChar b) s with
    | next u =>
      rw [awaitResult_step (by simp [hres]) (hstep.trans he)]
      obtain ⟨hcfg, hscript', -, ⟨ho, hf, hr⟩ | ⟨ho, -⟩ | ⟨ho, -⟩⟩ := putChar_outcome he
      · rw [runMicroSteps_goesOn he ho] at hrun
        have hu : { u with script := [] } = u := by rw [← hscript'.trans hscript]
        have hnext : step u = exec (.putChar b) u := by
          rw [step_inFlight hf (hcfg ▸ hv) (.inl ⟨hscript'.trans hscript, rfl⟩) ho, hu]
        rw [← hr] at hw ⊢
        exact ih hnext rfl (hcfg ▸ hv) (hscript'.trans hscript) hrun hw (Nat.le_of_succ_le_succ hfuel)
      all_goals
        rw [runMicroSteps_ends he ho] at hrun
        cases hrun
        exact awaitResult_delivered hw
    | fault | refused => simp [runMicroSteps, he] at hrun

/-- The link is up, the foreground and the environment have nothing to do, and `TXF` is free. -/
structure SendReady (s : State) : Prop where
  fault : s.fault = none
  build : s.cfg.valid = true
  noEdge : s.edgeFireReady = false
  link : s.notinit = false
  idle : s.fgOp = none
  port : s.cmdPort = []
  script : s.script = []
  wf : s.txf.data.wf = true
  lock : s.txf.lock = false
  top : s.txf.top.toNat ≤ s.cfg.capTx

theorem SendReady.canTake (h : SendReady s) (b : Byte) : canTake (.putChar b) s :=
  ⟨h.fault, h.noEdge, h.idle, rfl, by rw [h.link, Bool.and_false]⟩

/-- The result SEND waits for is the one the micro-steps deliver. -/
theorem SendReady.issueAndWait (h : SendReady s) (hrun : runMicroSteps (.putChar b) n s = .next t)
    (hr : t.results = s.results ++ [w]) (hfuel : n ≤ fuel) :
    issueAndWait fuel (.putChar b) s = .next (t, some w) := by
  rw [issueAndWait_idle h.idle h.port]
  have hs : { s with script := [], cmdPort := [] } = s := by rw [← h.port, ← h.script]
  have hstep := step_takes (s := { s with cmdPort := [⟨encode (.putChar b), s.storageOk⟩] }) h.fault h.build
    (.inl ⟨h.script, rfl⟩) h.idle rfl (decodeCommand_encode rfl)
  exact awaitResult_of_runMicroSteps (hstep.trans (congrArg _ hs)) rfl h.build h.script hrun (by simp [hr]) hfuel

/-- A byte that finds room is accepted, and joins `TXF` at the end. -/
theorem SendReady.accepts (h : SendReady s) (b : Byte) (hroom : s.txf.top.toNat < s.cfg.capTx) (hfuel : 6 ≤ fuel) :
    ∃ t, Machine.issueAndWait fuel (.putChar b) s = .next (t, some 1) ∧ SendReady t ∧ t.cfg = s.cfg ∧
      t.txf.top.toNat = s.txf.top.toNat + 1 ∧ contents t.txf = contents s.txf ++ [b] := by
  have hcap := (valid_capTx h.build).2
  have htop : (s.txf.top + 1).toNat = s.txf.top.toNat + 1 := by bv_omega
  have hrun := runMicroSteps_putChar_room (h.canTake b) h.lock hroom
  refine ⟨_, h.issueAndWait hrun rfl hfuel, ?_, rfl, htop, ?_⟩
  · exact { h with wf := write_wf _ _ _ h.wf, lock := rfl, top := htop.trans_le hroom }
  · exact contents_append h.wf hroom hcap b

/-- A byte that finds `TXF` full is not. -/
theorem SendReady.rejects (h : SendReady s) (b : Byte) (hfull : s.cfg.capTx ≤ s.txf.top.toNat) (hfuel : 6 ≤ fuel) :
    ∃ t, Machine.issueAndWait fuel (.putChar b) s = .next (t, some 0) ∧ t.txf = s.txf :=
  ⟨_, h.issueAndWait (runMicroSteps_putChar_full (h.canTake b) h.lock hfull) rfl (by omega), rfl⟩

variable {rest : List Byte}

theorem send_cons_accepted (h : issueAndWait fuel (.putChar b) s = .next (t, some 1)) :
    send fuel (b :: rest) s = ((send fuel rest t).1, (send fuel rest t).2.map (· + 1)) := by
  have hne : (1 : Word) ≠ resultWord 0 := by decide
  simp only [send, h, hne, if_false]

theorem send_cons_rejected (h : issueAndWait fuel (.putChar b) s = .next (t, some 0)) :
    send fuel (b :: rest) s = (.next t, some 0) := by
  have heq : (0 : Word) = resultWord 0 := by decide
  simp only [send, h, if_pos heq]

/-- SEND accepts the first bytes up to the free slots, in order. -/
theorem SendReady.exists_send (h : SendReady s) (hfuel : 6 ≤ fuel) (bytes : List Byte) :
    ∃ t, send fuel bytes s = (.next t, some (min bytes.length (s.cfg.capTx - s.txf.top.toNat))) ∧
      contents t.txf = contents s.txf ++ bytes.take (s.cfg.capTx - s.txf.top.toNat) := by
  induction bytes generalizing s with
  | nil => exact ⟨s, by simp [send], by simp⟩
  | cons b rest ih =>
    by_cases hroom : s.txf.top.toNat < s.cfg.capTx
    · obtain ⟨u, hu, hready, hcfg, htop, hcontents⟩ := h.accepts b hroom hfuel
      obtain ⟨t, ht, hct⟩ := ih hready
      obtain ⟨m, hm⟩ : ∃ m, s.cfg.capTx - s.txf.top.toNat = m + 1 := Nat.exists_eq_succ_of_ne_zero (by omega)
      have hm' : u.cfg.capTx - u.txf.top.toNat = m := by rw [hcfg]; omega
      rw [hm'] at ht hct
      refine ⟨t, ?_, ?_⟩
      · rw [send_cons_accepted hu, ht, hm]
        simp
      · rw [hct, hcontents, hm, List.take_succ_cons, List.append_assoc, List.singleton_append]
    · obtain ⟨t, ht, htxf⟩ := h.rejects b (not_lt.mp hroom) hfuel
      have hzero : s.cfg.capTx - s.txf.top.toNat = 0 := by omega
      exact ⟨t, by rw [send_cons_rejected ht, hzero]; rfl, by rw [htxf, hzero]; simp⟩

/-! The obligation. -/

/-- Settles O34: SEND counts the results 1 it waits for, and with no event inside, each PUT_CHAR is its micro-steps. -/
theorem sendCountsAcceptedBytes : Obligations.SendCountsAcceptedBytes :=
  ⟨fun _ _ _ _ _ ho hc h => results_of_send ho hc h,
    fun _ bytes _ hfuel hf hv he hn ho hc hs hw hl ht =>
      SendReady.exists_send ⟨hf, hv, he, hn, ho, hc, hs, hw, hl, ht⟩ hfuel bytes⟩

end Sys2Proof.Proofs
end

section
/-! PROOFS. The delivered EDGE_FIRE, the TICK and its frame (45_events.md R260 to R263; 20_memory.md R68). -/

namespace Sys2Proof.Proofs

open Sys2Proof.Machine Sys2Proof.Safety Sys2Proof.Laws

variable {s : State} {lvl : Bool}

/-! EDGE_FIRE (R263). -/

/-- The handler of EDGE_FIRE: `EDGE_PEND` is cleared, then the edge handler runs (R263). -/
theorem ignoresGie_edgeFire (c : BitVec 16) : IgnoresGie fun u => edgeHandler c { u with edgePend := false } :=
  fun g u => ignoresGie_edgeHandler c g { u with edgePend := false }

/-- An EDGE_FIRE delivered at an admitted count runs its handler (R263, R264). -/
theorem exec_edgeFire_delivered {c : BitVec 16} (hf : s.fault = none)
    (hw : (Instr.edgeFire c).wellFormed s.cfg = true) (hr : s.edgeFireReady = true) (hc : c.toNat ≤ s.tmrTop.toNat) :
    exec (.edgeFire c) s = .next (edgeHandler c { s with edgePend := false }) := by
  simp [exec, execEdgeFire, eventStep_run hf hw, hr, countAdmitted, hc, (ignoresGie_edgeFire c).takeInterrupt_eq]

/-- A build that has EDGE_FIRE latches edges (R84). -/
theorem edgeLatch_of_wellFormed {cfg : Config} {c : BitVec 16} (h : (Instr.edgeFire c).wellFormed cfg = true) :
    cfg.edgeLatch = .latched := by
  simp only [Instr.wellFormed, Bool.and_eq_true, decide_eq_true_eq] at h
  exact h.1

/-! What a TICK writes (R176, R201, R260). -/

/-- A TICK writes the status word, the engines' registers, `EDGE_IE`, the line and the FIFOs, and nothing else. -/
theorem tickHandler_eq (lvl : Bool) (hl : s.legal = true) : tickHandler lvl s =
    let t := tickHandler lvl s
    { s with
      status := t.status, rxShift := t.rxShift, rxBitcnt := t.rxBitcnt, rxPhase := t.rxPhase, rxCd := t.rxCd
      edgeIe := t.edgeIe, rxf := t.rxf, txShift := t.txShift, txBitcnt := t.txBitcnt, txPhase := t.txPhase
      txd := t.txd, txf := t.txf } := by
  obtain ⟨x, p, d, sh, n, f, htick⟩ := tickHandler_writes lvl s
  obtain ⟨y, rsh, rn, rp, cd, e, g, hrx⟩ := rxStep_writes lvl (rxBitcnt_le_of_legal hl)
  rw [htick, hrx]
  split <;> rfl

/-- The engines write neither `NOTINIT` nor the reserved bits (R27 to R29). -/
theorem tickHandler_keeps_status (lvl : Bool) (hl : s.legal = true) :
    (tickHandler lvl s).notinit = s.notinit ∧ (tickHandler lvl s).status &&& 0x60 = s.status &&& 0x60 := by
  obtain ⟨x, y, h⟩ := tickHandler_status lvl (rxBitcnt_le_of_legal hl)
  rw [State.notinit, h, notinitOf_setTxs, notinitOf_setRxs, reserved_setTxs, reserved_setRxs]
  split
  · exact ⟨notinitOf_setRxovf _, reserved_setRxovf _⟩
  · exact ⟨rfl, rfl⟩

theorem tickHandler_rxf_lock (lvl : Bool) (s : State) : (tickHandler lvl s).rxf.lock = s.rxf.lock := by
  rw [tickHandler_rxf, (serviceFifo_flags _).1, (rxStep_keeps_rxf_flags lvl s).1]

/-! The slots (R68). -/

/-- The service writes no slot where it compacts nothing (R138). -/
theorem serviceFifo_idle {f : Fifo} (h : f.dirty = false ∨ f.lock = true) : serviceFifo f = f := by
  obtain ⟨hd, hk, -⟩ | ⟨-, e⟩ := serviceFifo_cases f
  · simp [hd, hk] at h
  · exact e

/-- The RX step that receives nothing leaves `RXF` alone. -/
theorem rxStep_rxf_of_received_nil (hn : s.rxBitcnt.toNat ≤ 8) (h : received lvl s = []) :
    (rxStep lvl s).rxf = s.rxf := by
  cases hend : frameEnds s with
  | false => exact rxStep_rxf_of_not_frameEnds hn hend
  | true =>
    rw [rxStep_of_frameEnds lvl hend, rxStopBit_rxf]
    cases lvl with
    | false => rfl
    | true =>
      have hfull : s.cfg.capRx ≤ s.rxf.top.toNat := by simpa [received, hend] using h
      simp [rxPush, fifoAppend_eq_none_iff.mpr hfull]

/-- An append writes the slot at the count alone (R135). -/
theorem read_fifoAppend_other {cap : Nat} {f g : Fifo} {b : Byte} (h : fifoAppend cap f b = some g)
    (hw : f.data.wf = true) {a : Nat} (ha : a ≠ f.top.toNat) : g.data.read a = f.data.read a := by
  obtain ⟨-, e⟩ | ⟨-, e⟩ := fifoAppend_cases cap f b <;> rw [e] at h <;> cases h
  exact read_write_other _ _ _ _ ha hw

/-- The RX step writes the one slot a received byte is appended to (R68, R135). -/
theorem read_rxStep (hw : s.rxf.data.wf = true) (hn : s.rxBitcnt.toNat ≤ 8) {a : Nat}
    (ha : ¬ (received lvl s ≠ [] ∧ a = s.rxf.top.toNat)) :
    (rxStep lvl s).rxf.data.read a = s.rxf.data.read a := by
  by_cases hnil : received lvl s = []
  · rw [rxStep_rxf_of_received_nil hn hnil]
  · have hne : a ≠ s.rxf.top.toNat := fun e => ha ⟨hnil, e⟩
    obtain e | e := rxStep_rxf lvl s
    · rw [e]
    · exact read_fifoAppend_other e hw hne

/-- Where the service of `RXF` compacts nothing, a TICK leaves `RXF` as its RX step does (R138, R260). -/
theorem tickHandler_rxf_of_idle (lvl : Bool) (h : s.rxf.dirty = false ∨ s.rxf.lock = true) :
    (tickHandler lvl s).rxf = (rxStep lvl s).rxf := by
  obtain ⟨hlock, hdirty⟩ := rxStep_keeps_rxf_flags lvl s
  rw [tickHandler_rxf, serviceFifo_idle (by rwa [hlock, hdirty])]

/-- Where neither the transmitter nor the service compacts `TXF`, a TICK leaves it alone (R195, R138). -/
theorem tickHandler_txf_of_idle (lvl : Bool) (hl : s.legal = true) (hr : txRemoves s = false)
    (h : s.txf.dirty = false ∨ s.txf.lock = true) : (tickHandler lvl s).txf = s.txf := by
  rw [tickHandler_txf lvl (rxBitcnt_le_of_legal hl) (txBitcnt_le_of_legal hl), hr]
  exact serviceFifo_idle h

/-! The obligations. -/

/-- Settles O37: EDGE_FIRE clears `EDGE_PEND` and runs the handler a delivered EDGE runs. -/
theorem edgeFireDeliversLatchedEdge : Obligations.EdgeFireDeliversLatchedEdge := by
  intro s c hf hw hp he hg hc
  have hr : s.edgeFireReady = true := by
    simp [State.edgeFireReady, State.edgePendRead, edgeLatch_of_wellFormed hw, hp, he, hg]
  rw [exec_edgeFire_delivered hf hw hr hc]
  refine ⟨fun hidle => ⟨setRxs s.status .armedCountdown, ?_, rxsOf_setRxs _ _, fun k hk => getLsbD_setRxs _ _ hk⟩,
    fun hbusy => ?_⟩
  · rw [edgeHandler_idle c (s := { s with edgePend := false }) hidle, countdownFor_eq]
    rfl
  · rw [edgeHandler_busy c (s := { s with edgePend := false }) hbusy]

/-- Settles O39: the handler is the four steps in order, and the run invariant gives a TICK all it asks for. -/
theorem tickRunsHandler : Obligations.TickRunsHandler :=
  ⟨fun _ lvl hcan => exec_tick hcan lvl, fun _ hinv hn hf => (running_of_initialised hinv hn).canTick hf⟩

/-- Settles O40: a TICK writes the engines' fields and the FIFOs, and where nothing is compacted the one slot its RX
step appends to. -/
theorem tickFrame : Obligations.TickFrame := by
  intro s t lvl hw h
  cases exec_effect h with
  | rejected _ hc => cases hc
  | tick _ hl =>
    obtain ⟨hnotinit, hreserved⟩ := tickHandler_keeps_status lvl hl
    have hrx : s.rxf.dirty = false ∨ s.rxf.lock = true →
        ∀ a, ¬ (received lvl s ≠ [] ∧ a = s.rxf.top.toNat) →
          (tickHandler lvl s).rxf.data.read a = s.rxf.data.read a := fun hidle a ha => by
      rw [tickHandler_rxf_of_idle lvl hidle, read_rxStep hw (rxBitcnt_le_of_legal hl) ha]
    have htx : txRemoves s = false → s.txf.dirty = false ∨ s.txf.lock = true →
        ∀ a, (tickHandler lvl s).txf.data.read a = s.txf.data.read a := fun hr hidle a => by
      rw [tickHandler_txf_of_idle lvl hl hr hidle]
    rw [tickHandler_eq lvl hl]
    exact ⟨rfl, rfl, rfl, rfl, rfl, rfl, rfl, rfl, rfl, rfl, rfl, rfl, rfl, rfl, rfl, rfl, rfl, rfl, rfl, rfl,
      hnotinit, hreserved, tickHandler_rxf_lock lvl s, tickHandler_txf_lock lvl hl, hrx, htx⟩

end Sys2Proof.Proofs
end

section
/-! PROOFS. A model fault is precise, no agent moves after it, and an illegal command word raises one
(60_exceptions.md R284, R290). -/

namespace Sys2Proof.Proofs

open Sys2Proof.Machine Sys2Proof.Safety Sys2Proof.Laws

variable {s t : State} {i : Instr} {c d : FaultCode} {rest : List Turn}

/-! The fault register. -/

theorem edgeHandler_fault (n : BitVec 16) (s : State) : (edgeHandler n s).fault = s.fault := by
  by_cases hs : s.rxState = .idle
  · rw [edgeHandler_idle n hs]; rfl
  · rw [edgeHandler_busy n hs]

/-- An operation raises a model fault and does nothing else, or leaves `FAULT` alone. -/
theorem exec_raises_or_keeps_fault (h : exec i s = .next t) : (∃ d, t = raiseFault d s) ∨ t.fault = s.fault := by
  cases exec_effect h with
  | rejected | initInterruptible | gc2Empty => exact .inl ⟨_, rfl⟩
  | @tick lvl _ _ hl => exact .inr (by rw [tickHandler_eq lvl hl])
  | @edgeTaken n => exact .inr (edgeHandler_fault n s)
  | @edgeFire n => exact .inr (edgeHandler_fault n { s with edgePend := false })
  | _ => exact .inr rfl

/-- An operation that ends with `FAULT` set started without it and made no other change (R284). -/
theorem exec_faulting (h : exec i s = .next t) (hc : t.fault = some c) :
    s.fault = none ∧ t = { s with fault := some c } := by
  have hf := fault_eq_none_of_exec h
  obtain ⟨d, rfl⟩ | hkeep := exec_raises_or_keeps_fault h
  · obtain rfl : d = c := Option.some.inj ((raiseFault_fault d s hf).symm.trans hc)
    exact ⟨hf, raiseFault_of_none d s hf⟩
  · cases (hc.symm.trans hkeep).trans hf

/-! After a fault. -/

/-- No event and no micro-step is taken once `FAULT` is set (R284). -/
theorem exec_faulted (hc : s.fault = some c) (i : Instr) : exec i s = .fault (.stopped c) := by
  cases hi : i.isCommand with
  | true =>
    obtain ⟨first, body, h⟩ := exec_command_eq hi
    simp [h, foregroundStep, hc]
  | false =>
    obtain ⟨body, h⟩ := exec_event_eq hi
    simp [h, eventStep, hc]

theorem step_faulted (hc : s.fault = some c) : step s = .fault (.stopped c) := by
  simp [step, fetch, hc]

/-- `FAULT` is sticky: only the first raise writes it. -/
theorem raiseFault_of_some (hc : s.fault = some c) (d : FaultCode) : raiseFault d s = s := by
  simp [raiseFault, hc]

theorem goodFinal_faulted (hc : s.fault = some c) : goodFinal s = false := by
  simp [goodFinal, hc]

/-! The illegal command word. -/

theorem isCommand_of_decodeCommand {w : Word} (h : decodeCommand w = .ok i) : i.isCommand = true := by
  unfold decodeCommand at h
  split at h
  · split at h <;> cases h
    assumption
  · cases h

theorem fetchForeground_undecodable (hf : s.fault = none) (he : s.edgeFireReady = false) (ho : s.fgOp = none)
    {w : HostCommand} {port : List HostCommand} (hp : s.cmdPort = w :: port) {e : DecodeError}
    (hd : decodeCommand w.word = .error e) : fetchForeground s = .done (.next { s with
      cmdPort := port, storageOk := w.storageOk, fault := some .illegalCommand }) := by
  simp [fetchForeground, ho, hp, hd, he, raiseFault, hf]

/-- A word that decodes to no command is faulted when it is taken (R84, R290). -/
theorem step_takes_undecodable (hf : s.fault = none) (hv : s.cfg.valid = true) (he : s.edgeFireReady = false)
    (hs : foregroundTurn s rest) (ho : s.fgOp = none) {w : HostCommand} {port : List HostCommand}
    (hp : s.cmdPort = w :: port) {e : DecodeError} (hd : decodeCommand w.word = .error e) :
    step s = .next { s with
      script := rest, cmdPort := port, storageOk := w.storageOk, fault := some .illegalCommand } := by
  rw [step, fetch_foregroundTurn hf hv hs, fetchForeground_undecodable (s := { s with script := rest }) hf he ho hp hd]

/-- A command that is not legal for the build is faulted when it is taken (R84, R290). -/
theorem step_takes_illFormed (hf : s.fault = none) (hv : s.cfg.valid = true) (he : s.edgeFireReady = false)
    (hs : foregroundTurn s rest) (ho : s.fgOp = none) {w : HostCommand} {port : List HostCommand}
    (hp : s.cmdPort = w :: port) (hd : decodeCommand w.word = .ok i) (hw : i.wellFormed s.cfg = false) :
    step s = .next { s with
      script := rest, cmdPort := port, storageOk := w.storageOk, fault := some .illegalCommand } := by
  rw [step_takes hf hv hs ho hp hd]
  exact exec_command_illFormed (s := { s with script := rest, cmdPort := port, storageOk := w.storageOk })
    hf he ho (isCommand_of_decodeCommand hd) hw

/-! The obligations. -/

/-- Settles O7: an operation's one way to set `FAULT` is the raise, which writes nothing else, and every agent reads
`FAULT` first. -/
theorem faultStopsEveryAgent : Obligations.FaultStopsEveryAgent :=
  ⟨raiseFault_of_none, fun _ _ _ _ h hc => exec_faulting h hc, fun _ _ hc =>
    ⟨step_faulted hc, exec_faulted hc, raiseFault_of_some hc, goodFinal_faulted hc⟩⟩

/-- Settles O9: the decoder refuses the word before it is run, or the taking of the command does. -/
theorem illegalCommandWordFaults : Obligations.IllegalCommandWordFaults := by
  intro s w port rest hf hv he hs ho hp hill
  obtain ⟨e, hd⟩ | ⟨i, hd, hw⟩ := hill
  · exact step_takes_undecodable hf hv he hs ho hp hd
  · exact step_takes_illFormed hf hv he hs ho hp hd hw

end Sys2Proof.Proofs
end

section
/-! PROOFS. An EDGE and a TICK that fall together, in either order (60_exceptions.md R282). -/

namespace Sys2Proof.Proofs

open Sys2Proof.Machine Sys2Proof.Safety Sys2Proof.Laws

variable {s t u : State} {c : BitVec 16} {lvl : Bool}

theorem runEvents_pair {i j : Instr} (hi : exec i s = .next t) (hj : exec j t = .next u) :
    runEvents [i, j] s = .next u := by
  simp [runEvents, hi, hj]

theorem edgeReady_of_tickReady (h : s.tickReady = true) (he : s.edgeIe = true) : s.edgeReady = true := by
  simp only [State.tickReady, Bool.and_eq_true] at h
  simp [State.edgeReady, he, h]

/-- A new countdown is 2 or 3 (R164): neither order of test and decrement is at its end. -/
theorem countdownFor_ne (c thresh : BitVec 16) : countdownFor c thresh ≠ 0 ∧ countdownFor c thresh ≠ 1 := by
  unfold countdownFor
  split <;> decide

/-! EDGE, then TICK. -/

/-- The edge handler leaves legal values: the countdown it arms is never 0 (R54(f), R164). -/
theorem legal_edgeHandler (h : s.legal = true) (c : BitVec 16) : (edgeHandler c s).legal = true := by
  by_cases hs : s.rxState = .idle
  · simp only [State.legal, Bool.and_eq_true, decide_eq_true_eq] at h
    obtain ⟨⟨⟨⟨⟨⟨⟨-, hrn⟩, htn⟩, hstart⟩, -⟩, hrxf⟩, htxf⟩, hcap⟩ := h
    simp only [edgeHandler_idle c hs, State.legal, Bool.and_eq_true, decide_eq_true_eq, rxState_setRxState,
      txState_setRxState]
    exact ⟨⟨⟨⟨⟨⟨⟨by decide, hrn⟩, htn⟩, hstart⟩, fun _ _ => (countdownFor_ne c s.thresh).1⟩, hrxf⟩, htxf⟩, hcap⟩
  · rwa [edgeHandler_busy c hs]

/-- A TICK that can occur can still occur after an EDGE. -/
theorem canTick_edgeHandler (h : canTick s) (c : BitVec 16) : canTick (edgeHandler c s) := by
  obtain ⟨hf, hr, hl⟩ := h
  refine ⟨(edgeHandler_fault c s).trans hf, ?_, legal_edgeHandler hl c⟩
  by_cases hs : s.rxState = .idle
  · rw [edgeHandler_idle c hs]; exact hr
  · rwa [edgeHandler_busy c hs]

/-- The TICK after the edge counts down: a new countdown is 2 or 3, so no sample is due (R164, R170). -/
theorem exec_tick_after_edge (hcan : canTick s) (hidle : s.rxState = .idle) (c : BitVec 16) (lvl : Bool) :
    ∃ t, exec (.tick lvl) (edgeHandler c s) = .next t ∧ t.rxState = .armedCountdown ∧
      t.rxCd.toNat + 1 = (countdownFor c s.thresh).toNat := by
  have hcan' := canTick_edgeHandler hcan c
  rw [edgeHandler_idle c hidle] at hcan' ⊢
  obtain ⟨t, ht, -, -, hcounts, -⟩ := rxCountdownAndFirstSample _ lvl hcan' (rxState_setRxState _ _)
  obtain ⟨hne0, hne1⟩ := countdownFor_ne c s.thresh
  obtain ⟨hstate, hcd, -⟩ := hcounts fun hsample => hsample.elim (fun h => hne0 h.2) fun h => hne1 h.2
  exact ⟨t, ht, hstate, hcd⟩

/-! TICK, then EDGE. -/

/-- A TICK that finds the receiver idle leaves all the EDGE reads (R169, R260). -/
theorem tickHandler_idle_keeps (lvl : Bool) (hidle : s.rxState = .idle) :
    let t := tickHandler lvl s
    t.rxState = .idle ∧ t.cfg = s.cfg ∧ t.fault = s.fault ∧ t.edgeIe = s.edgeIe ∧ t.gie = s.gie ∧
      t.tmrTop = s.tmrTop ∧ t.thresh = s.thresh := by
  have hstate := rxState_tickHandler lvl s
  obtain ⟨_, _, _, _, _, _, h⟩ := tickHandler_writes lvl s
  rw [rxStep_idle lvl hidle] at h hstate
  refine ⟨hstate.trans hidle, ?_⟩
  rw [h]
  exact ⟨rfl, rfl, rfl, rfl, rfl, rfl⟩

/-- The EDGE after the TICK arms the receiver as it would have before it. -/
theorem exec_edge_after_tick (hf : s.fault = none) (hw : (Instr.edge c).wellFormed s.cfg = true)
    (hr : s.edgeReady = true) (hc : c.toNat ≤ s.tmrTop.toNat) (hidle : s.rxState = .idle) (lvl : Bool) :
    ∃ u, exec (.edge c) (tickHandler lvl s) = .next u ∧ u.rxState = .armedCountdown ∧
      u.rxCd = countdownFor c s.thresh := by
  obtain ⟨hidle', hcfg, hfault, hie, hgie, htop, hthresh⟩ := tickHandler_idle_keeps lvl hidle
  have hr' : (tickHandler lvl s).edgeReady = true := by rwa [State.edgeReady, hie, hgie]
  refine ⟨_, exec_edge_delivered (hfault.trans hf) (by rwa [hcfg]) hr' (by rwa [htop]), ?_⟩
  rw [edgeHandler_idle c hidle', hthresh]
  exact ⟨rxState_setRxState _ _, rfl⟩

/-! The obligation. -/

/-- Settles O58: taken first, the EDGE sets the countdown that the TICK then counts down; taken second, the TICK finds
the receiver idle. -/
theorem simultaneousEdgeAndTickOrder : Obligations.SimultaneousEdgeAndTickOrder := by
  intro s c lvl hcan hw he hc hidle
  obtain ⟨t, ht, htstate, htcd⟩ := exec_tick_after_edge hcan hidle c lvl
  have htick := exec_tick hcan lvl
  obtain ⟨hf, hready, -⟩ := hcan
  have hr := edgeReady_of_tickReady hready he
  obtain ⟨u, hu, hustate, hucd⟩ := exec_edge_after_tick hf hw hr hc hidle lvl
  exact ⟨t, u, runEvents_pair (exec_edge_delivered hf hw hr hc) ht, runEvents_pair htick hu, htstate, hustate,
    hucd.trans (countdownFor_eq c s.thresh), by rw [htcd, hucd]⟩

end Sys2Proof.Proofs
end

section
/-! PROOFS. What reset specifies, and that INITIALISE overwrites the rest; a GET_CHAR taken while a pop is outstanding
(70_reset_and_hazards.md R321, R324). -/

namespace Sys2Proof.Proofs

open Sys2Proof.Machine Sys2Proof.Safety Sys2Proof.Laws

variable {s : State} {idx : BitVec 3}

/-! Reset (R321). -/

/-- The status word at reset: both engines `IDLE`, no overflow, not initialised (R23). -/
theorem fields_of_reset_status :
    rxsOf 0x80 = .idle ∧ txsOf 0x80 = .idle ∧ rxovfOf 0x80 = false ∧ notinitOf 0x80 = true := by decide

/-- An INITIALISE of a rate the build enables can be taken at reset: with `GIE` off no EDGE_FIRE is due (R221, R263). -/
theorem canTake_initialise_of_unstarted (hu : Unstarted s) (hf : s.fault = none)
    (hrate : s.cfg.rateEnabled idx = true) : canTake (.initialise idx) s :=
  ⟨hf, by simp [State.edgeFireReady, hu.gie], hu.fgIdle, hrate, rfl⟩

/-- The first INITIALISE of a rate, given its storage, has the effects of R224. -/
theorem exec_initialise_of_unstarted (hu : Unstarted s) (hf : s.fault = none)
    (hrate : s.cfg.rateEnabled idx = true) (hstorage : s.storageOk = true) {ts : TimerSetting}
    (hts : timerSetting s.cfg idx.toNat = some ts) :
    exec (.initialise idx) s = .next (deliverFrom .i1 0 (initialiseEffects idx ts s)) :=
  (exec_initialise (canTake_initialise_of_unstarted hu hf hrate)).trans
    (initialiseI1_done hu.tmrRun hu.gie hstorage hts)

/-! GET_CHAR over an outstanding pop (R228, R324). -/

/-- With a pop outstanding GC1 leaves the command at GC1 (R228). -/
theorem exec_getChar_gc1_held (h : canTake .getChar s ∨ inFlight .getChar .gc1 s) (hdirty : s.rxf.dirty = true) :
    exec .getChar s = .next { s with fgOp := some .getChar, fgStep := .gc1 } := by
  rw [exec_getChar_gc1 h, hdirty]; rfl

/-- A GET_CHAR held at GC1 goes on as one that is taken now (R220, R228). -/
theorem runMicroSteps_getChar_gc1 (h : inFlight .getChar .gc1 s) (htake : canTake .getChar { s with fgOp := none })
    (n : Nat) : runMicroSteps .getChar (n + 1) s = runMicroSteps .getChar (n + 1) { s with fgOp := none } := by
  rw [runMicroSteps, runMicroSteps, exec_getChar_gc1 (.inr h), exec_getChar_gc1 (.inl htake)]

/-- A TICK leaves the foreground where it is, and adds no result and no fault (R283, R298). -/
theorem tickHandler_keeps_foreground (lvl : Bool) (hl : s.legal = true) :
    (tickHandler lvl s).fault = s.fault ∧ (tickHandler lvl s).fgOp = s.fgOp ∧
      (tickHandler lvl s).fgStep = s.fgStep ∧ (tickHandler lvl s).results = s.results := by
  rw [tickHandler_eq lvl hl]
  exact ⟨rfl, rfl, rfl, rfl⟩

/-! The obligations. -/

/-- Settles O11: the fields of the status word are those of 0x80, and reset writes out the others. -/
theorem resetValues : Obligations.ResetValues := by
  intro cfg
  obtain ⟨hrxs, htxs, hrxovf, hnotinit⟩ := fields_of_reset_status
  exact ⟨rfl, rfl, hrxs, htxs, hrxovf, hnotinit, rfl, rfl, rfl, rfl, rfl, rfl, rfl, rfl⟩

/-- Settles O12: R224 writes every unspecified field but the FIFO bytes and the locals, from `idx` and the build. -/
theorem unspecifiedResetValuesUnobserved : Obligations.UnspecifiedResetValuesUnobserved := by
  intro r q idx hreset hcfg hv hrate
  obtain ⟨hur, hfr, -, hresr, hportr, hscriptr, hstorager⟩ := hreset r (.inl rfl)
  obtain ⟨huq, hfq, -, hresq, hportq, hscriptq, hstorageq⟩ := hreset q (.inr rfl)
  obtain ⟨ts, hts⟩ := exists_timerSetting hv (canTake_initialise_of_unstarted hur hfr hrate)
  refine ⟨_, _, exec_initialise_of_unstarted hur hfr hrate hstorager hts,
    exec_initialise_of_unstarted huq hfq (hcfg ▸ hrate) hstorageq (hcfg ▸ hts), ?_, rfl, rfl⟩
  simp only [deliverFrom, deliver, initialiseEffects, hcfg, hfr, hfq, hresr, hresq, hportr, hportq, hscriptr, hscriptq,
    hstorager, hstorageq]

/-- Settles O30: the command is held by the pop alone, which the TICK's service of `RXF` ends; the byte behind the
popped one is then the front, and the held command answers as a GET_CHAR taken now. -/
theorem secondGetCharWaitsForTick : Obligations.SecondGetCharWaitsForTick := by
  intro s lvl b c rest hinv hs htake hdirty hbytes
  have ⟨hf, he, _⟩ := htake
  let t : State := { s with fgOp := some .getChar, fgStep := .gc1 }
  have hst : exec .getChar s = .next t := exec_getChar_gc1_held (.inl htake) hdirty
  have htt : exec .getChar t = .next t := exec_getChar_gc1_held (.inr ⟨hf, he, rfl, rfl⟩) hdirty
  have hrun : Running t := (running_of_inv hinv hs).effect (exec_effect hst)
  have hcan := hrun.canTick hf
  obtain ⟨u, hu, -, hclean, hrest⟩ := tickReceiveFifo t lvl hcan hrun.rxf.wf (valid_capRx hrun.build).2
  cases (exec_tick hcan lvl).symm.trans hu
  rw [hrun.rxLock, Bool.and_false] at hclean
  have hfront : contents (tickHandler lvl t).rxf = c :: (rest ++ received lvl t) := by
    rw [hrest, show t.rxf.dirty = true from hdirty, hrun.rxLock, show contents t.rxf = _ from hbytes]; rfl
  refine ⟨t, _, hst, htt, rfl, hu, hclean, by rw [hfront]; rfl, fun hfire => ?_⟩
  obtain ⟨hfault, hop, hstep, hresults⟩ := tickHandler_keeps_foreground lvl hrun.legal
  have hrun' := hrun.tickHandler lvl
  have hretake : canTake .getChar { tickHandler lvl t with fgOp := none } :=
    ⟨hfault.trans hf, hfire, rfl, rfl, hrun'.notinit⟩
  have hanswer := getCharAnswersOldest _ c _ hretake (valid_capRx hrun'.build).1 hclean hfront
  exact ⟨_, (runMicroSteps_getChar_gc1 ⟨hfault.trans hf, hfire, hop, hstep⟩ hretake 2).trans hanswer, rfl,
    congrArg (· ++ _) hresults⟩

end Sys2Proof.Proofs
end
